-- ==== Sys2Proof/Word.lean ====
section
/-! DEFINITION. The value types of the machine (00_scope.md R7, R8; 30_encoding.md R72). Every register value is
an unsigned integer of its stated width, so a bit vector: it wraps, and software sees its bits. -/
namespace Sys2Proof

/-- An 8-bit register or memory byte (R21, R50). -/
abbrev Byte := BitVec 8

/-- A 16-bit value: an instruction word, I, pc, a stack entry (R23, R24, R25, R71). -/
abbrev Word := BitVec 16

/-- A 4-bit register number, field X or Y: every value names a register (R21, R72). -/
abbrev RegNo := BitVec 4

/-- A 4-bit row count, field N of DXYN (R74). -/
abbrev Nibble := BitVec 4

/-- A 12-bit literal address, field NNN (R72). -/
abbrev Addr12 := BitVec 12

/-- A key code 0..15 (R34). -/
abbrev Key := BitVec 4

end Sys2Proof
end

