-- ==== Sys2Proof/Config.lean ====
section
/-! DEFINITION. What the spec fixes for this hardware (00_scope.md R6; the parameters listed at the end of
92_eei_decisions.md) and the free values: the environment's answers once nothing is lined up in the state. -/
namespace Sys2Proof

/-- One sample of the input port `key_down` (10_state.md R31, R33): bit k is key k, 0 ≤ k ≤ 15. `outside` is the
answer to a question with a code above 15, which the spec leaves unconstrained (D11; log 14). -/
structure KeypadSample where
  keyDown : BitVec 16
  outside : Bool
deriving DecidableEq, Repr, Inhabited

/-- `MEM_SIZE`: addresses 0x000 to 0xFFF (R6, R50). -/
@[simp] abbrev Config.memSize : Nat := 0x1000

/-- `FONT_SIZE`: 16 glyphs of 5 bytes from address 0 (R6, R52). -/
@[simp] abbrev Config.fontSize : Nat := 0x050

/-- `FONT_BASE` (R6, R152). -/
@[simp] abbrev Config.fontBase : Word := 0x000#16

/-- `ROM_BASE`, also the reset value of pc (R6, R24). -/
@[simp] abbrev Config.romBase : Nat := 0x200

/-- `ROM_MAX` (R6, R201, D29). -/
@[simp] abbrev Config.romMax : Nat := 3584

/-- `FONT` (R52, D2): the customary glyphs, top row first. PRESUMED by the spec itself (G1; log 7). -/
def Config.font : List Byte :=
  [ 0xF0#8, 0x90#8, 0x90#8, 0x90#8, 0xF0#8,  0x20#8, 0x60#8, 0x20#8, 0x20#8, 0x70#8,
    0xF0#8, 0x10#8, 0xF0#8, 0x80#8, 0xF0#8,  0xF0#8, 0x10#8, 0xF0#8, 0x10#8, 0xF0#8 ] ++
  [ 0x90#8, 0x90#8, 0xF0#8, 0x10#8, 0x10#8,  0xF0#8, 0x80#8, 0xF0#8, 0x10#8, 0xF0#8,
    0xF0#8, 0x80#8, 0xF0#8, 0x90#8, 0xF0#8,  0xF0#8, 0x10#8, 0x20#8, 0x40#8, 0x40#8 ] ++
  [ 0xF0#8, 0x90#8, 0xF0#8, 0x90#8, 0xF0#8,  0xF0#8, 0x90#8, 0xF0#8, 0x10#8, 0xF0#8,
    0xF0#8, 0x90#8, 0xF0#8, 0x90#8, 0x90#8,  0xE0#8, 0x90#8, 0xE0#8, 0x90#8, 0xE0#8 ] ++
  [ 0xF0#8, 0x80#8, 0x80#8, 0x80#8, 0xF0#8,  0xE0#8, 0x90#8, 0x90#8, 0x90#8, 0xE0#8,
    0xF0#8, 0x80#8, 0xF0#8, 0x80#8, 0xF0#8,  0xF0#8, 0x80#8, 0xF0#8, 0x80#8, 0x80#8 ]

/-- `INIT_MEM` (R37, D13): the fill of memory outside the font and the ROM. DESIGN CHOICE of the spec; log 7. -/
def Config.initMem : Byte := 0x00#8

/-- `INIT_V` (R37, D12). DESIGN CHOICE of the spec; log 6. -/
def Config.initV : Byte := 0x00#8

/-- `INIT_I` (R37, D12). DESIGN CHOICE of the spec; log 6. -/
def Config.initI : Word := 0x0000#16

/-- `INIT_DT` (R37, D12). DESIGN CHOICE of the spec; log 6. -/
def Config.initDT : Byte := 0x00#8

/-- `INIT_ST` (R37, D12). DESIGN CHOICE of the spec; log 6. -/
def Config.initST : Byte := 0x00#8

/-- The reset content of a stack entry. DESIGN CHOICE: R37 leaves it unspecified and unobservable; log 8. -/
def Config.initStackEntry : Word := 0x0000#16

/-- `TICK_PHASE` (R28, R37, D3): the reset value of `steps`. DESIGN CHOICE of the spec; log 9. -/
def Config.tickPhase : Fin 8 := 0

/-- What an address holds that nothing has written since reset: the font byte below 0x050, the fill above (R37). -/
def Config.unwritten (a : Nat) : Byte := Config.font.getD a Config.initMem

/-- FREE VALUE: the n-th answer of `Random()` when the state lines up none (R35, U5; log 1). -/
opaque Config.freeRandom : Nat → Byte

/-- FREE VALUE: the n-th sample of the keypad when the state lines up none (R33, U8; log 1). -/
opaque Config.freeKeypad : Nat → KeypadSample

/-- FREE VALUE: what `NextKey()` finds at the n-th question when the state lines up nothing: a key press, or none
presented yet (R34, U13; log 1). -/
opaque Config.freePress : Nat → Option Key

end Sys2Proof
end

