-- ==== Sys2Proof/Syntax.lean ====
section
/-! DEFINITION. The 34 instructions (30_encoding.md R76), one constructor per row of spec/opcode_table.json, named
by the row's pattern (R80). Operands are the fields of R72, each at its own width (R74). -/
namespace Sys2Proof

/-- An instruction with its operand fields. Every value of every field is legal (R21, R74). -/
inductive Instr where
  | op00E0                                  -- clear the display (R160)
  | op00EE                                  -- return from subroutine (R110)
  | op1NNN (nnn : Addr12)                   -- jump (R111)
  | op2NNN (nnn : Addr12)                   -- call (R112)
  | op3XNN (x : RegNo) (nn : Byte)          -- skip if V[X] = NN (R121)
  | op4XNN (x : RegNo) (nn : Byte)          -- skip if V[X] ≠ NN (R122)
  | op5XY0 (x y : RegNo)                    -- skip if V[X] = V[Y] (R123)
  | op6XNN (x : RegNo) (nn : Byte)          -- load immediate (R132)
  | op7XNN (x : RegNo) (nn : Byte)          -- add immediate, no flag (R133)
  | op8XY0 (x y : RegNo)                    -- copy (R134)
  | op8XY1 (x y : RegNo)                    -- OR (R135)
  | op8XY2 (x y : RegNo)                    -- AND (R136)
  | op8XY3 (x y : RegNo)                    -- XOR (R137)
  | op8XY4 (x y : RegNo)                    -- add, VF = carry (R138)
  | op8XY5 (x y : RegNo)                    -- V[X] - V[Y], VF = no borrow (R139)
  | op8XY6 (x y : RegNo)                    -- shift right, VF = old bit 0; Y ignored (R140)
  | op8XY7 (x y : RegNo)                    -- V[Y] - V[X], VF = no borrow (R141)
  | op8XYE (x y : RegNo)                    -- shift left, VF = old bit 7; Y ignored (R142)
  | op9XY0 (x y : RegNo)                    -- skip if V[X] ≠ V[Y] (R124)
  | opANNN (nnn : Addr12)                   -- I := NNN (R150)
  | opBNNN (nnn : Addr12)                   -- jump to NNN + V[0] (R113)
  | opCXNN (x : RegNo) (nn : Byte)          -- random AND NN (R170)
  | opDXYN (x y : RegNo) (n : Nibble)       -- draw a sprite (R161)
  | opEX9E (x : RegNo)                      -- skip if key V[X] is pressed (R125)
  | opEXA1 (x : RegNo)                      -- skip if key V[X] is not pressed (R126)
  | opFX07 (x : RegNo)                      -- V[X] := DT (R171)
  | opFX0A (x : RegNo)                      -- wait for a key press (R172)
  | opFX15 (x : RegNo)                      -- DT := V[X] (R173)
  | opFX18 (x : RegNo)                      -- ST := V[X] (R174)
  | opFX1E (x : RegNo)                      -- I := I + V[X] (R151)
  | opFX29 (x : RegNo)                      -- I := 5 * V[X] (R152)
  | opFX33 (x : RegNo)                      -- store BCD of V[X] (R153)
  | opFX55 (x : RegNo)                      -- store V[0..X] (R154)
  | opFX65 (x : RegNo)                      -- load V[0..X] (R155)
deriving DecidableEq, Repr

end Sys2Proof
end

