-- ==== Sys2Proof/WellFormed.lean ====
section
/-! DEFINITION. What is well formed, as decidable checks: a 16-bit word is legal when a row of the opcode map (30_encoding.md
R76) matches it, a map is well formed when no word matches two of its rows, and a ROM is one that fits (R201). An
`Instr` needs no check of its own: each operand's type holds exactly the values of its field, and R21 and R74 say
that every one of them is legal. -/
namespace Sys2Proof

/-- A row of the opcode map (R76): it selects the words `w` with `w AND mask = bits`. -/
structure OpcodeRow where
  pattern : String
  mask : Word
  bits : Word
deriving DecidableEq, Repr

/-- The row selects the word (R76). -/
def OpcodeRow.selects (r : OpcodeRow) (w : Word) : Bool := w &&& r.mask == r.bits

/-- The two rows differ in a digit that both fix, so no word matches both (R76). -/
def OpcodeRow.disjoint (r q : OpcodeRow) : Bool := r.bits &&& q.mask != q.bits &&& r.mask

/-- The opcode map of R76, in its order. -/
def opcodeMap : List OpcodeRow :=
  [ ⟨"00E0", 0xFFFF#16, 0x00E0#16⟩, ⟨"00EE", 0xFFFF#16, 0x00EE#16⟩, ⟨"1NNN", 0xF000#16, 0x1000#16⟩,
    ⟨"2NNN", 0xF000#16, 0x2000#16⟩, ⟨"3XNN", 0xF000#16, 0x3000#16⟩, ⟨"4XNN", 0xF000#16, 0x4000#16⟩,
    ⟨"5XY0", 0xF00F#16, 0x5000#16⟩, ⟨"6XNN", 0xF000#16, 0x6000#16⟩, ⟨"7XNN", 0xF000#16, 0x7000#16⟩ ] ++
  [ ⟨"8XY0", 0xF00F#16, 0x8000#16⟩, ⟨"8XY1", 0xF00F#16, 0x8001#16⟩, ⟨"8XY2", 0xF00F#16, 0x8002#16⟩,
    ⟨"8XY3", 0xF00F#16, 0x8003#16⟩, ⟨"8XY4", 0xF00F#16, 0x8004#16⟩, ⟨"8XY5", 0xF00F#16, 0x8005#16⟩,
    ⟨"8XY6", 0xF00F#16, 0x8006#16⟩, ⟨"8XY7", 0xF00F#16, 0x8007#16⟩, ⟨"8XYE", 0xF00F#16, 0x800E#16⟩ ] ++
  [ ⟨"9XY0", 0xF00F#16, 0x9000#16⟩, ⟨"ANNN", 0xF000#16, 0xA000#16⟩, ⟨"BNNN", 0xF000#16, 0xB000#16⟩,
    ⟨"CXNN", 0xF000#16, 0xC000#16⟩, ⟨"DXYN", 0xF000#16, 0xD000#16⟩, ⟨"EX9E", 0xF0FF#16, 0xE09E#16⟩,
    ⟨"EXA1", 0xF0FF#16, 0xE0A1#16⟩ ] ++
  [ ⟨"FX07", 0xF0FF#16, 0xF007#16⟩, ⟨"FX0A", 0xF0FF#16, 0xF00A#16⟩, ⟨"FX15", 0xF0FF#16, 0xF015#16⟩,
    ⟨"FX18", 0xF0FF#16, 0xF018#16⟩, ⟨"FX1E", 0xF0FF#16, 0xF01E#16⟩, ⟨"FX29", 0xF0FF#16, 0xF029#16⟩,
    ⟨"FX33", 0xF0FF#16, 0xF033#16⟩, ⟨"FX55", 0xF0FF#16, 0xF055#16⟩, ⟨"FX65", 0xF0FF#16, 0xF065#16⟩ ]

/-- Some row of the map matches the word; the other words are the illegal encodings of R77. -/
def legalWord (w : Word) : Bool := opcodeMap.any (·.selects w)

/-- No word matches two rows of the map (R76), and every row fixes only digits under its mask. -/
def wellFormedMap : List OpcodeRow → Bool
  | [] => true
  | r :: rest => r.bits &&& ~~~r.mask == 0#16 && rest.all (r.disjoint ·) && wellFormedMap rest

/-- A ROM that fits: at most 3584 bytes (R201, D29). -/
def romFits (rom : List Byte) : Bool := decide (rom.length ≤ Config.romMax)

/-- The row of the opcode map that an instruction belongs to (R76). -/
def Instr.row : Instr → OpcodeRow
  | .op00E0 => ⟨"00E0", 0xFFFF#16, 0x00E0#16⟩
  | .op00EE => ⟨"00EE", 0xFFFF#16, 0x00EE#16⟩
  | .op1NNN _ => ⟨"1NNN", 0xF000#16, 0x1000#16⟩
  | .op2NNN _ => ⟨"2NNN", 0xF000#16, 0x2000#16⟩
  | .op3XNN _ _ => ⟨"3XNN", 0xF000#16, 0x3000#16⟩
  | .op4XNN _ _ => ⟨"4XNN", 0xF000#16, 0x4000#16⟩
  | .op5XY0 _ _ => ⟨"5XY0", 0xF00F#16, 0x5000#16⟩
  | .op6XNN _ _ => ⟨"6XNN", 0xF000#16, 0x6000#16⟩
  | .op7XNN _ _ => ⟨"7XNN", 0xF000#16, 0x7000#16⟩
  | .op8XY0 _ _ => ⟨"8XY0", 0xF00F#16, 0x8000#16⟩
  | .op8XY1 _ _ => ⟨"8XY1", 0xF00F#16, 0x8001#16⟩
  | .op8XY2 _ _ => ⟨"8XY2", 0xF00F#16, 0x8002#16⟩
  | .op8XY3 _ _ => ⟨"8XY3", 0xF00F#16, 0x8003#16⟩
  | .op8XY4 _ _ => ⟨"8XY4", 0xF00F#16, 0x8004#16⟩
  | .op8XY5 _ _ => ⟨"8XY5", 0xF00F#16, 0x8005#16⟩
  | .op8XY6 _ _ => ⟨"8XY6", 0xF00F#16, 0x8006#16⟩
  | .op8XY7 _ _ => ⟨"8XY7", 0xF00F#16, 0x8007#16⟩
  | .op8XYE _ _ => ⟨"8XYE", 0xF00F#16, 0x800E#16⟩
  | .op9XY0 _ _ => ⟨"9XY0", 0xF00F#16, 0x9000#16⟩
  | .opANNN _ => ⟨"ANNN", 0xF000#16, 0xA000#16⟩
  | .opBNNN _ => ⟨"BNNN", 0xF000#16, 0xB000#16⟩
  | .opCXNN _ _ => ⟨"CXNN", 0xF000#16, 0xC000#16⟩
  | .opDXYN _ _ _ => ⟨"DXYN", 0xF000#16, 0xD000#16⟩
  | .opEX9E _ => ⟨"EX9E", 0xF0FF#16, 0xE09E#16⟩
  | .opEXA1 _ => ⟨"EXA1", 0xF0FF#16, 0xE0A1#16⟩
  | .opFX07 _ => ⟨"FX07", 0xF0FF#16, 0xF007#16⟩
  | .opFX0A _ => ⟨"FX0A", 0xF0FF#16, 0xF00A#16⟩
  | .opFX15 _ => ⟨"FX15", 0xF0FF#16, 0xF015#16⟩
  | .opFX18 _ => ⟨"FX18", 0xF0FF#16, 0xF018#16⟩
  | .opFX1E _ => ⟨"FX1E", 0xF0FF#16, 0xF01E#16⟩
  | .opFX29 _ => ⟨"FX29", 0xF0FF#16, 0xF029#16⟩
  | .opFX33 _ => ⟨"FX33", 0xF0FF#16, 0xF033#16⟩
  | .opFX55 _ => ⟨"FX55", 0xF0FF#16, 0xF055#16⟩
  | .opFX65 _ => ⟨"FX65", 0xF0FF#16, 0xF065#16⟩

end Sys2Proof
end

