-- ==== Sys2Proof/Decode.lean ====
section
/-! DEFINITION. The decoder (30_encoding.md R70 to R77), total on any bytes and rejecting by name, and the encoder
written from the same table (R73, R76). -/
namespace Sys2Proof

/-- Why the decoder gives no instruction. -/
inductive DecodeReject where
  /-- The word matches no row of R76; carries the raw word (R77, R182). -/
  | unimplementedOpcode (w : Word)
  /-- Fewer than two bytes were given: no instruction word to decode (R70). -/
  | truncated
deriving DecidableEq, Repr

/-- `OP`, nibble1 (R72). -/
def opField (w : Word) : BitVec 4 := w.extractLsb' 12 4

/-- `X`, nibble2 (R72). -/
def xField (w : Word) : RegNo := w.extractLsb' 8 4

/-- `Y`, nibble3 (R72). -/
def yField (w : Word) : RegNo := w.extractLsb' 4 4

/-- `N`, nibble4 (R72). -/
def nField (w : Word) : Nibble := w.extractLsb' 0 4

/-- `NN`, the low byte (R72). -/
def nnField (w : Word) : Byte := w.extractLsb' 0 8

/-- `NNN`, the low 12 bits (R72). -/
def nnnField (w : Word) : Addr12 := w.extractLsb' 0 12

/-- The big-endian word of two bytes: `(byte0 << 8) | byte1` (R57, R71). -/
def wordOfBytes (byte0 byte1 : Byte) : Word := byte0 ++ byte1

/-- The two bytes of a word as memory holds them, high byte first (R57, R71). -/
def bytesOfWord (w : Word) : List Byte := [w.extractLsb' 8 8, w.extractLsb' 0 8]

/-- Family 0: the whole word must match (R75, D14). -/
def decodeFamily0 (w : Word) : Except DecodeReject Instr :=
  if w = 0x00E0#16 then .ok .op00E0
  else if w = 0x00EE#16 then .ok .op00EE
  else .error (.unimplementedOpcode w)

/-- Families 5 and 9: the low nibble must be 0 (R75, D14). -/
def decodeZeroNibble (w : Word) (i : Instr) : Except DecodeReject Instr :=
  if nField w = 0x0#4 then .ok i else .error (.unimplementedOpcode w)

/-- Family 8: secondary dispatch on nibble4 (R75). -/
def decodeFamily8 (w : Word) : Except DecodeReject Instr :=
  match (nField w).toNat with
  | 0x0 => .ok (.op8XY0 (xField w) (yField w))
  | 0x1 => .ok (.op8XY1 (xField w) (yField w))
  | 0x2 => .ok (.op8XY2 (xField w) (yField w))
  | 0x3 => .ok (.op8XY3 (xField w) (yField w))
  | 0x4 => .ok (.op8XY4 (xField w) (yField w))
  | 0x5 => .ok (.op8XY5 (xField w) (yField w))
  | 0x6 => .ok (.op8XY6 (xField w) (yField w))
  | 0x7 => .ok (.op8XY7 (xField w) (yField w))
  | 0xE => .ok (.op8XYE (xField w) (yField w))
  | _ => .error (.unimplementedOpcode w)

/-- Family E: secondary dispatch on the low byte (R75). -/
def decodeFamilyE (w : Word) : Except DecodeReject Instr :=
  if nnField w = 0x9E#8 then .ok (.opEX9E (xField w))
  else if nnField w = 0xA1#8 then .ok (.opEXA1 (xField w))
  else .error (.unimplementedOpcode w)

/-- Family F: secondary dispatch on the low byte (R75). -/
def decodeFamilyF (w : Word) : Except DecodeReject Instr :=
  if nnField w = 0x07#8 then .ok (.opFX07 (xField w))
  else if nnField w = 0x0A#8 then .ok (.opFX0A (xField w))
  else if nnField w = 0x15#8 then .ok (.opFX15 (xField w))
  else if nnField w = 0x18#8 then .ok (.opFX18 (xField w))
  else if nnField w = 0x1E#8 then .ok (.opFX1E (xField w))
  else if nnField w = 0x29#8 then .ok (.opFX29 (xField w))
  else if nnField w = 0x33#8 then .ok (.opFX33 (xField w))
  else if nnField w = 0x55#8 then .ok (.opFX55 (xField w))
  else if nnField w = 0x65#8 then .ok (.opFX65 (xField w))
  else .error (.unimplementedOpcode w)

/-- `decode(instr)` of R75: nibble1 selects the family. The last arm is family F, the only one left. -/
def decodeWord (w : Word) : Except DecodeReject Instr :=
  match (opField w).toNat with
  | 0x0 => decodeFamily0 w
  | 0x1 => .ok (.op1NNN (nnnField w))
  | 0x2 => .ok (.op2NNN (nnnField w))
  | 0x3 => .ok (.op3XNN (xField w) (nnField w))
  | 0x4 => .ok (.op4XNN (xField w) (nnField w))
  | 0x5 => decodeZeroNibble w (.op5XY0 (xField w) (yField w))
  | 0x6 => .ok (.op6XNN (xField w) (nnField w))
  | 0x7 => .ok (.op7XNN (xField w) (nnField w))
  | 0x8 => decodeFamily8 w
  | 0x9 => decodeZeroNibble w (.op9XY0 (xField w) (yField w))
  | 0xA => .ok (.opANNN (nnnField w))
  | 0xB => .ok (.opBNNN (nnnField w))
  | 0xC => .ok (.opCXNN (xField w) (nnField w))
  | 0xD => .ok (.opDXYN (xField w) (yField w) (nField w))
  | 0xE => decodeFamilyE w
  | _ => decodeFamilyF w

/-- The decoder on a list of bytes: the instruction of the first two and the bytes after it (R70, R71). -/
def decodeBytes : List Byte → Except DecodeReject (Instr × List Byte)
  | byte0 :: byte1 :: rest => (decodeWord (wordOfBytes byte0 byte1)).map (·, rest)
  | _ => .error .truncated

/-- Format `NNN` (R73). -/
def formatNNN (op : BitVec 4) (nnn : Addr12) : Word := op ++ nnn

/-- Format `XNN` (R73). -/
def formatXNN (op : BitVec 4) (x : RegNo) (nn : Byte) : Word := op ++ x ++ nn

/-- Formats `XY` and `XYN` (R73): the last nibble is the sub-opcode or N. -/
def formatXYN (op : BitVec 4) (x y : RegNo) (n : BitVec 4) : Word := op ++ x ++ y ++ n

/-- The word of an instruction (R73, R76). Format `X` is `XNN` with the sub-opcode in the low byte. -/
def encode : Instr → Word
  | .op00E0 => 0x00E0#16
  | .op00EE => 0x00EE#16
  | .op1NNN nnn => formatNNN 0x1#4 nnn
  | .op2NNN nnn => formatNNN 0x2#4 nnn
  | .op3XNN x nn => formatXNN 0x3#4 x nn
  | .op4XNN x nn => formatXNN 0x4#4 x nn
  | .op5XY0 x y => formatXYN 0x5#4 x y 0x0#4
  | .op6XNN x nn => formatXNN 0x6#4 x nn
  | .op7XNN x nn => formatXNN 0x7#4 x nn
  | .op8XY0 x y => formatXYN 0x8#4 x y 0x0#4
  | .op8XY1 x y => formatXYN 0x8#4 x y 0x1#4
  | .op8XY2 x y => formatXYN 0x8#4 x y 0x2#4
  | .op8XY3 x y => formatXYN 0x8#4 x y 0x3#4
  | .op8XY4 x y => formatXYN 0x8#4 x y 0x4#4
  | .op8XY5 x y => formatXYN 0x8#4 x y 0x5#4
  | .op8XY6 x y => formatXYN 0x8#4 x y 0x6#4
  | .op8XY7 x y => formatXYN 0x8#4 x y 0x7#4
  | .op8XYE x y => formatXYN 0x8#4 x y 0xE#4
  | .op9XY0 x y => formatXYN 0x9#4 x y 0x0#4
  | .opANNN nnn => formatNNN 0xA#4 nnn
  | .opBNNN nnn => formatNNN 0xB#4 nnn
  | .opCXNN x nn => formatXNN 0xC#4 x nn
  | .opDXYN x y n => formatXYN 0xD#4 x y n
  | .opEX9E x => formatXNN 0xE#4 x 0x9E#8
  | .opEXA1 x => formatXNN 0xE#4 x 0xA1#8
  | .opFX07 x => formatXNN 0xF#4 x 0x07#8
  | .opFX0A x => formatXNN 0xF#4 x 0x0A#8
  | .opFX15 x => formatXNN 0xF#4 x 0x15#8
  | .opFX18 x => formatXNN 0xF#4 x 0x18#8
  | .opFX1E x => formatXNN 0xF#4 x 0x1E#8
  | .opFX29 x => formatXNN 0xF#4 x 0x29#8
  | .opFX33 x => formatXNN 0xF#4 x 0x33#8
  | .opFX55 x => formatXNN 0xF#4 x 0x55#8
  | .opFX65 x => formatXNN 0xF#4 x 0x65#8

/-- The word of an opcode-table row: its `nbits` low bits, the bits above them 0. -/
def tableWord (nbits w : Nat) : Word := BitVec.ofNat 16 (w % 2 ^ nbits)

/-- The host's question about a table row: what the decoder reads from the word, laid out high byte first. -/
def decodeTableWord (nbits w : Nat) : Option Instr :=
  match decodeBytes (bytesOfWord (tableWord nbits w)) with
  | .ok (i, _) => some i
  | .error _ => none

end Sys2Proof
end

