-- ==== Sys2Proof/Machine/State.lean ====
section
/-! DEFINITION. The state of the core (10_state.md R20 to R30, 20_memory.md R50), its outputs (R36) and the
environment's side of the input ports (R31 to R35), all plain data; the stop reasons; the state after reset (R37). -/
namespace Sys2Proof.Machine

/-- The five fault kinds (60_exceptions.md R181). -/
inductive FaultKind where
  | unimplementedOpcode
  | emptyStack
  | addressOutOfRange
  | fontWrite
  | stackOverflow
deriving DecidableEq, Repr

/-- What a fault records: its kind and a 16-bit value (R29, R181). -/
structure FaultRecord where
  kind : FaultKind
  info : Word
deriving DecidableEq, Repr

/-- `status` (R29). -/
inductive Status where
  | running
  | faulted (f : FaultRecord)
deriving DecidableEq, Repr

/-- The `cycles` output of the last step (R36, R96, D4): a completed step reports 1 or BLOCKING, any other
nothing. BLOCKING is no number. -/
inductive CycleReport where
  | nothing
  | one
  | blocking
deriving DecidableEq, Repr

/-- Bytes of main memory that differ from what an unwritten address holds: addresses strictly rising (R50). -/
abbrev Memory := List Host.Cell

/-- `display[y][x]`: 32 rows, top first, of 64 pixels, left first (R26). -/
abbrev Bitmap := Vector (Vector Bool 64) 32

/-- The MODEL's own field, not state of the core (R32): the answers the environment has lined up for each of the three
questions, and how many questions were asked. Past the end of a list the answer is a free value of Config
(DESIGN CHOICE, safe; logs 1 and 2). -/
structure Env where
  randomBytes : List Byte
  keypads : List KeypadSample
  presses : List (Option Key)
  asked : Nat
deriving DecidableEq, Repr

/-- The whole state. `V` to `mem` are R20's table under its own names; `cycles` and `fbUpdate` are the outputs of the
last step (R36); `env` is the model's own. -/
structure State where
  V : Vector Byte 16
  I : Word
  pc : Word
  stack : Vector Word 16
  sp : Fin 17
  display : Bitmap
  DT : Byte
  ST : Byte
  steps : Fin 8
  status : Status
  mem : Memory
  cycles : CycleReport
  fbUpdate : Bool
  env : Env
deriving DecidableEq, Repr

/-- Why the machine has no next state. -/
inductive Fault where
  /-- Raised by `step` alone, on a core whose status is already `Faulted`: it "takes no further step" (R29, R186).
  Safe: the spec gives no next state either. -/
  | stopped (f : FaultRecord)
deriving DecidableEq, Repr

/-- Why an instruction has no meaning in the model. -/
inductive Refusal where
  /-- Raised by an arm of `exec` for an instruction not modelled yet. Safe: nothing is claimed of it. No arm does. -/
  | notModelled (mnemonic : String)
deriving DecidableEq, Repr

/-- Nothing lined up, nothing asked (DESIGN CHOICE; log 2). -/
def Env.atReset : Env := { randomBytes := [], keypads := [], presses := [], asked := 0 }

/-- The state after reset, before a ROM is loaded (R37, R200). -/
def State.reset : State where
  V := Vector.replicate 16 Config.initV
  I := Config.initI
  pc := 0x0200#16
  stack := Vector.replicate 16 Config.initStackEntry
  sp := 0
  display := Vector.replicate 32 (Vector.replicate 64 false)
  DT := Config.initDT
  ST := Config.initST
  steps := Config.tickPhase
  status := .running
  mem := []
  cycles := .nothing
  fbUpdate := false
  env := Env.atReset

end Sys2Proof.Machine
end

