-- ==== Sys2Proof/Machine/Ops.lean ====
section
/-! DEFINITION. The named operations over memory, registers, stack, display and the environment; raising a fault (the one
shared operation, 60_exceptions.md R185, R186); fetch, pre-increment and the end of a step (40_step_cycle.md R90 to R97);
loading a ROM (70_reset_and_hazards.md R201). There is no return from a fault (R187), so none stands beside it. -/
namespace Sys2Proof.Machine

/-! ### Main memory (20_memory.md R50 to R56) -/

/-- The byte at an address: the listed one, or what an unwritten address holds. -/
def Memory.read : Memory → Nat → Byte
  | [], a => Config.unwritten a
  | (k, b) :: rest, a => if k = a then b else Memory.read rest a

/-- The memory with `b` at `a`, in canonical form: an entry is kept only when it differs from the unwritten byte. -/
def Memory.write : Memory → Nat → Byte → Memory
  | [], a, b => if b = Config.unwritten a then [] else [(a, b)]
  | (k, c) :: rest, a, b =>
    if k < a then (k, c) :: Memory.write rest a b
    else if k = a then (if b = Config.unwritten a then rest else (a, b) :: rest)
    else if b = Config.unwritten a then (k, c) :: rest else (a, b) :: (k, c) :: rest

/-- Consecutive bytes from address `a` on, in order (R59). -/
def Memory.writeBytes : Memory → Nat → List Byte → Memory
  | m, _, [] => m
  | m, a, b :: bs => Memory.writeBytes (Memory.write m a b) (a + 1) bs

/-- The `n` bytes from address `a` on, in order (R59). -/
def Memory.readBytes (m : Memory) (a n : Nat) : List Byte := (List.range n).map fun i => Memory.read m (a + i)

/-- The canonical form: every listed address is a byte of main memory, differs from what an unwritten one holds, and lies
below the next. -/
def Memory.wf : Memory → Bool
  | [] => true
  | (k, b) :: rest =>
    decide (k < Config.memSize) && b != Config.unwritten k && rest.all (fun c => decide (k < c.1)) && Memory.wf rest

/-- `mem[0x000..0x04F]` equals `FONT`: in canonical form, nothing is listed there (R38, R52). -/
def Memory.fontIntact (m : Memory) : Bool := m.all fun c => decide (Config.fontSize ≤ c.1)

/-! ### Registers (10_state.md R21 to R24) -/

/-- Read of `V[x]` (R9, R21). -/
def State.v (s : State) (x : RegNo) : Byte := s.V[x.toNat]'(x.isLt)

/-- `V[x] <- b` (R9, R21). -/
def State.setV (s : State) (x : RegNo) (b : Byte) : State := { s with V := s.V.set x.toNat b x.isLt }

/-- `I <- w` (R23). -/
def State.setI (s : State) (w : Word) : State := { s with I := w }

/-- `pc <- w` (R24). -/
def State.setPc (s : State) (w : Word) : State := { s with pc := w }

/-- `DT <- b` (R27). -/
def State.setDT (s : State) (b : Byte) : State := { s with DT := b }

/-- `ST <- b` (R27). -/
def State.setST (s : State) (b : Byte) : State := { s with ST := b }

/-- The result and then the flag: when `x` is 15 the flag is what remains (R131, D7; log 12). -/
def State.setResultAndFlag (s : State) (x : RegNo) (result flag : Byte) : State := (s.setV x result).setV 0xF#4 flag

/-- `V[i] <- mem[I + i]` for i = 0 .. x, the registers above `x` unchanged (R155). -/
def State.loadRegs (s : State) (x : RegNo) : State :=
  { s with V := Vector.ofFn fun i : Fin 16 =>
      if i.val ≤ x.toNat then Memory.read s.mem (s.I.toNat + i.val) else s.V[i.val]'(i.isLt) }

/-- The memory with bytes written from address `a` on, the rest of the state unchanged. -/
def State.storeBytes (s : State) (a : Nat) (bs : List Byte) : State := { s with mem := Memory.writeBytes s.mem a bs }

/-! ### Faults (60_exceptions.md R181, R185, R186) -/

/-- The code numbers, labels only (R181, D27). -/
def FaultKind.code : FaultKind → Nat
  | .unimplementedOpcode => 1
  | .emptyStack => 2
  | .addressOutOfRange => 3
  | .fontWrite => 4
  | .stackOverflow => 5

/-- `raise`: `status <- Faulted(kind, info)`, nothing reported but the fault, everything else as it is (R98, R185,
R186). -/
def State.takeFault (s : State) (f : FaultRecord) : State :=
  { s with status := .faulted f, cycles := .nothing, fbUpdate := false }

/-- The fault if there is one, else the effect `t`: every check comes before the first write (R185). -/
def State.unlessFault (s : State) (f : Option FaultRecord) (t : State) : State :=
  match f with
  | some r => s.takeFault r
  | none => t

/-- `MemRead(addr, 1)` with its own range check (R53). The instructions check their whole range first (R55). -/
def State.memRead (s : State) (a : Nat) : Except FaultRecord Byte :=
  if a > 0xFFF then .error ⟨.addressOutOfRange, BitVec.ofNat 16 (a % 65536)⟩ else .ok (Memory.read s.mem a)

/-- `MemWrite(addr, 1, v)` with its own range and font checks (R54). -/
def State.memWrite (s : State) (a : Nat) (b : Byte) : Except FaultRecord State :=
  if a > 0xFFF then .error ⟨.addressOutOfRange, BitVec.ofNat 16 (a % 65536)⟩
  else if a < 0x050 then .error ⟨.fontWrite, BitVec.ofNat 16 a⟩
  else .ok (s.storeBytes a [b])

/-! ### The call stack (10_state.md R25) -/

/-- The fault of `pushStack(a)`: `StackOverflow(a)` when 16 entries are in use (R25, D10). -/
def State.pushFault (s : State) (a : Word) : Option FaultRecord :=
  if s.sp.val = 16 then some ⟨.stackOverflow, a⟩ else none

/-- `stack[sp] <- a ; sp <- sp + 1` (R25). A full stack is left as it is: `pushFault` has stopped the push. -/
def State.pushStack (s : State) (a : Word) : State :=
  if h : s.sp.val < 16 then
    { s with stack := s.stack.set s.sp.val a h, sp := ⟨s.sp.val + 1, Nat.succ_lt_succ h⟩ }
  else s

/-- The fault of `popStack()` and `peekStack()`: `EmptyStack` when no entry is in use, its info 0 (R25, R181). -/
def State.popFault (s : State) : Option FaultRecord := if s.sp.val = 0 then some ⟨.emptyStack, 0x0000#16⟩ else none

/-- `stack[sp - 1]`, the top entry. An empty stack, which `popFault` has stopped, is read at entry 0. -/
def State.topOfStack (s : State) : Word := s.stack[s.sp.val - 1]'(by have := s.sp.isLt; omega)

/-- `sp <- sp - 1`; the popped entry keeps its value (R25, R110). -/
def State.dropTop (s : State) : State := { s with sp := ⟨s.sp.val - 1, by have := s.sp.isLt; omega⟩ }

/-- `peekStack()`, the accessor for the host: no instruction uses it (R25, R183). -/
def State.peekStack (s : State) : Except FaultRecord Word :=
  match s.popFault with
  | some f => .error f
  | none => .ok s.topOfStack

/-! ### The display (10_state.md R26) -/

/-- The pixel in column `x`, row `y` (R26): in bounds by its types, so U1's case cannot arise. -/
def State.pixel (s : State) (x : Fin 64) (y : Fin 32) : Bool := (s.display[y.val]'y.isLt)[x.val]'x.isLt

/-- All 2048 pixels 0 (R26, R160). -/
def blankDisplay : Bitmap := Vector.replicate 32 (Vector.replicate 64 false)

/-- The display replaced as a whole. -/
def State.setDisplay (s : State) (d : Bitmap) : State := { s with display := d }

/-! ### What a completed step reports (40_step_cycle.md R96, R97) -/

/-- A completed instruction that reports 1 and draws nothing (R96). -/
def State.completed (s : State) : State := { s with cycles := .one, fbUpdate := false }

/-- A completed 00E0 or DXYN: reports 1 and raises `fb_update` (R96, R97, D17). -/
def State.completedDrawing (s : State) : State := { s with cycles := .one, fbUpdate := true }

/-- A completed FX0A: reports BLOCKING (R96). -/
def State.completedBlocking (s : State) : State := { s with cycles := .blocking, fbUpdate := false }

/-! ### The environment's answers (10_state.md R32 to R35; logs 1 and 14) -/

/-- The answer to `Random()`: any byte (R35). -/
def Env.randomByte (e : Env) : Byte :=
  match e.randomBytes with
  | b :: _ => b
  | [] => Config.freeRandom e.asked

/-- The environment after it answered `Random()`. -/
def Env.afterRandom (e : Env) : Env := { e with randomBytes := e.randomBytes.tail, asked := e.asked + 1 }

/-- The sample of the keypad that answers the next `KeyDown` question. -/
def Env.keypad (e : Env) : KeypadSample :=
  match e.keypads with
  | k :: _ => k
  | [] => Config.freeKeypad e.asked

/-- The answer to `KeyDown(k)`: `key_down[k]` for k up to 15, unconstrained above (R33, D11). -/
def Env.keyDown (e : Env) (k : Byte) : Bool :=
  if k.toNat ≤ 15 then e.keypad.keyDown.getLsbD k.toNat else e.keypad.outside

/-- The environment after it answered `KeyDown`. -/
def Env.afterKeyDown (e : Env) : Env := { e with keypads := e.keypads.tail, asked := e.asked + 1 }

/-- What `NextKey()` finds: the code of a presented key press, or none presented yet (R34). -/
def Env.nextKey (e : Env) : Option Key :=
  match e.presses with
  | p :: _ => p
  | [] => Config.freePress e.asked

/-- The environment after `NextKey()` looked: a presented press is consumed, and an empty instant has passed (R34). -/
def Env.afterNextKey (e : Env) : Env := { e with presses := e.presses.tail, asked := e.asked + 1 }

/-- The state with the environment moved on. -/
def State.setEnv (s : State) (e : Env) : State := { s with env := e }

/-- FX0A with no press presented: nothing of the core changes and the same instruction is still the one to complete, so pc
goes back from a + 2 to a; nothing is reported (R10, R29, R102). Only the environment has moved on (log 3). -/
def State.waitForKey (s : State) : State :=
  { s with pc := s.pc - 2#16, cycles := .nothing, fbUpdate := false, env := s.env.afterNextKey }

/-! ### Fetch, pre-increment, end of the step (40_step_cycle.md R90 to R95) -/

/-- The fault of `Fetch(pc)`: either byte above 0xFFF, carrying pc (R55, R91). -/
def State.fetchFault (s : State) : Option FaultRecord :=
  if s.pc.toNat > 0xFFE then some ⟨.addressOutOfRange, s.pc⟩ else none

/-- The instruction word at pc, big-endian (R57, R71, R91). -/
def State.fetchWord (s : State) : Word :=
  wordOfBytes (Memory.read s.mem s.pc.toNat) (Memory.read s.mem (s.pc.toNat + 1))

/-- `pc <- (pc + 2) mod 65536`, before the instruction executes (R92). -/
def State.advancePc (s : State) : State := s.setPc (s.pc + 2#16)

/-- A timer's tick: down by one, never below zero (R27, R95). -/
def tickTimer (t : Byte) : Byte := if t.toNat > 0 then t - 1#8 else t

/-- `steps <- steps + 1`, and at 8 back to 0 with a tick of both timers (R94, R95). -/
def State.countStep (s : State) : State :=
  if h : s.steps.val + 1 < 8 then { s with steps := ⟨s.steps.val + 1, h⟩ }
  else { s with steps := 0, DT := tickTimer s.DT, ST := tickTimer s.ST }

/-- The end of a step: one that completed, so reported a cost, is counted; a fault or a wait is not (R94, R98, R102). -/
def State.finishStep (s : State) : State :=
  match s.cycles with
  | .nothing => s
  | .one => s.countStep
  | .blocking => s.countStep

/-! ### The host before the run (70_reset_and_hazards.md R201) -/

/-- `mem[0x200 + i] <- b[i]`, nothing else written; a ROM that does not fit is refused (R201, D29; log 22). -/
def State.loadRom (s : State) (rom : List Byte) : Option State :=
  if romFits rom then some (s.storeBytes Config.romBase rom) else none

end Sys2Proof.Machine
end

