-- ==== Sys2Proof/Machine/Operands.lean ====
section
/-! DEFINITION. The operand forms (30_encoding.md R72, R74): the immediates at their use, the memory range at I with
its checks (20_memory.md R55, R56), the register list of FX55, the decimal digits of FX33, and the sprite of DXYN with
its origin and clipping (45_display.md R161). -/
namespace Sys2Proof.Machine

/-- `zext_16(NNN)` (R74). -/
def zextAddr (nnn : Addr12) : Word := nnn.setWidth 16

/-- `zext_16(V[x])` (R8). -/
def zextByte (b : Byte) : Word := b.setWidth 16

/-- `zext_8(k)` of a key code (R172). -/
def zextKey (k : Key) : Byte := k.setWidth 8

/-- The check of a range of `n` bytes read at I: if a byte lies above 0xFFF, `AddressOutOfRange` carrying the lowest such
address, max(I, 0x1000). An empty range makes no access (R55, R161). -/
def State.readRangeFault (s : State) (n : Nat) : Option FaultRecord :=
  if n ≥ 1 ∧ s.I.toNat + n - 1 > 0xFFF then
    some ⟨.addressOutOfRange, BitVec.ofNat 16 (max s.I.toNat 0x1000)⟩
  else none

/-- The check of a range of `n` bytes stored at I: the range first, then the font table (R55, R56, R188). -/
def State.storeRangeFault (s : State) (n : Nat) : Option FaultRecord :=
  match s.readRangeFault n with
  | some f => some f
  | none => if s.I.toNat < 0x050 then some ⟨.fontWrite, s.I⟩ else none

/-- `V[0], …, V[x]` in order, `V[x]` included (R154). -/
def State.regsUpTo (s : State) (x : RegNo) : List Byte := s.V.toList.take (x.toNat + 1)

/-- `I + X + 1`, where FX55 and FX65 leave I (R154, R155). -/
def State.indexPast (s : State) (x : RegNo) : Word := s.I + BitVec.ofNat 16 (x.toNat + 1)

/-- Hundreds, tens and ones, each in a whole byte (R153). -/
def bcdDigits (v : Byte) : List Byte :=
  [BitVec.ofNat 8 (v.toNat / 100), BitVec.ofNat 8 (v.toNat / 10 % 10), BitVec.ofNat 8 (v.toNat % 10)]

/-- `V[x] mod 64`, the origin column of a sprite (R161). -/
def State.originColumn (s : State) (x : RegNo) : Nat := (s.v x).toNat % 64

/-- `V[y] mod 32`, the origin row of a sprite (R161). -/
def State.originRow (s : State) (y : RegNo) : Nat := (s.v y).toNat % 32

/-- The N sprite bytes at I, clipped rows included (R161, D26). -/
def State.spriteRows (s : State) (n : Nibble) : List Byte := Memory.readBytes s.mem s.I.toNat n.toNat

/-- The sprite bit over pixel (x, y) of a sprite at origin (ox, oy): row y - oy, most significant bit leftmost; 0
where the sprite does not reach. What would fall outside the display has no pixel, so it is clipped (R161). -/
def spriteBit (rows : List Byte) (ox oy x y : Nat) : Bool :=
  decide (oy ≤ y) && decide (ox ≤ x) && decide (x < ox + 8) && (rows.getD (y - oy) 0x00#8).getLsbD (7 - (x - ox))

/-- Every pixel XOR the sprite bit over it (R161). -/
def drawSprite (d : Bitmap) (rows : List Byte) (ox oy : Nat) : Bitmap :=
  Vector.ofFn fun y : Fin 32 => Vector.ofFn fun x : Fin 64 =>
    ((d[y.val]'y.isLt)[x.val]'x.isLt) ^^ spriteBit rows ox oy x.val y.val

end Sys2Proof.Machine
end

