-- ==== Sys2Proof/Machine/Flags.lean ====
section
/-! DEFINITION. Every computation of the flag byte V[15] (10_state.md R22, 43_alu.md R143, 45_display.md R161). -/
namespace Sys2Proof.Machine

/-- A flag write stores the whole byte 0x00 or 0x01 (R22). -/
def flagByte (c : Bool) : Byte := if c then 0x01#8 else 0x00#8

/-- Carry of 8XY4: the exact sum exceeds 255 (R138). -/
def carryFlag (x y : Byte) : Byte := flagByte (decide (x.toNat + y.toNat > 255))

/-- No borrow of `minuend - subtrahend`: 1 exactly when minuend ≥ subtrahend (R139, R141; D5, log 10). -/
def noBorrowFlag (minuend subtrahend : Byte) : Byte := flagByte (decide (minuend.toNat ≥ subtrahend.toNat))

/-- The bit 8XY6 shifts out: bit 0 (R140). -/
def lowBitFlag (x : Byte) : Byte := flagByte (x.getLsbD 0)

/-- The bit 8XYE shifts out: bit 7 (R142). -/
def highBitFlag (x : Byte) : Byte := flagByte (x.getLsbD 7)

/-- The pixel at column `x`, row `y`, and 0 outside the display, where sprites are clipped (R161). -/
def pixelOrClear (d : Bitmap) (x y : Nat) : Bool :=
  if h : y < 32 ∧ x < 64 then (d[y]'h.1)[x]'h.2 else false

/-- Collision of DXYN: some pixel of the unclipped sprite is set under a sprite bit of 1 (R161). -/
def collisionFlag (d : Bitmap) (rows : List Byte) (ox oy : Nat) : Byte :=
  flagByte ((List.range rows.length).any fun r => (List.range 8).any fun b =>
    pixelOrClear d (ox + b) (oy + r) && (rows.getD r 0x00#8).getLsbD (7 - b))

end Sys2Proof.Machine
end

