-- ==== Sys2Proof/Machine/Alu.lean ====
section
/-! DEFINITION. Register load, arithmetic, logic and shifts (43_alu.md R130 to R142). Operands are read before anything
is written, and the flag is written last (R131). -/
namespace Sys2Proof.Machine

/-- 6XNN: V[X] := NN (R132). -/
def exec6XNN (x : RegNo) (nn : Byte) (s : State) : Host.Outcome State Fault Refusal :=
  .next (s.setV x nn).completed

/-- 7XNN: V[X] := (V[X] + NN) mod 256, no flag (R133). -/
def exec7XNN (x : RegNo) (nn : Byte) (s : State) : Host.Outcome State Fault Refusal :=
  .next (s.setV x (s.v x + nn)).completed

/-- 8XY0: V[X] := V[Y] (R134). -/
def exec8XY0 (x y : RegNo) (s : State) : Host.Outcome State Fault Refusal :=
  .next (s.setV x (s.v y)).completed

/-- 8XY1: V[X] := V[X] OR V[Y], VF untouched (R135). -/
def exec8XY1 (x y : RegNo) (s : State) : Host.Outcome State Fault Refusal :=
  .next (s.setV x (s.v x ||| s.v y)).completed

/-- 8XY2: V[X] := V[X] AND V[Y], VF untouched (R136). -/
def exec8XY2 (x y : RegNo) (s : State) : Host.Outcome State Fault Refusal :=
  .next (s.setV x (s.v x &&& s.v y)).completed

/-- 8XY3: V[X] := V[X] XOR V[Y], VF untouched (R137). -/
def exec8XY3 (x y : RegNo) (s : State) : Host.Outcome State Fault Refusal :=
  .next (s.setV x (s.v x ^^^ s.v y)).completed

/-- 8XY4: V[X] := (V[X] + V[Y]) mod 256, V[15] := carry (R138). -/
def exec8XY4 (x y : RegNo) (s : State) : Host.Outcome State Fault Refusal :=
  .next (s.setResultAndFlag x (s.v x + s.v y) (carryFlag (s.v x) (s.v y))).completed

/-- 8XY5: V[X] := (V[X] - V[Y]) mod 256, V[15] := no borrow (R139, D5). -/
def exec8XY5 (x y : RegNo) (s : State) : Host.Outcome State Fault Refusal :=
  .next (s.setResultAndFlag x (s.v x - s.v y) (noBorrowFlag (s.v x) (s.v y))).completed

/-- 8XY6: V[X] := V[X] >> 1, V[15] := old bit 0; the Y field is ignored (R140). -/
def exec8XY6 (x _y : RegNo) (s : State) : Host.Outcome State Fault Refusal :=
  .next (s.setResultAndFlag x (s.v x >>> 1) (lowBitFlag (s.v x))).completed

/-- 8XY7: V[X] := (V[Y] - V[X]) mod 256, V[15] := no borrow (R141). -/
def exec8XY7 (x y : RegNo) (s : State) : Host.Outcome State Fault Refusal :=
  .next (s.setResultAndFlag x (s.v y - s.v x) (noBorrowFlag (s.v y) (s.v x))).completed

/-- 8XYE: V[X] := (V[X] << 1) mod 256, V[15] := old bit 7; the Y field is ignored (R142). -/
def exec8XYE (x _y : RegNo) (s : State) : Host.Outcome State Fault Refusal :=
  .next (s.setResultAndFlag x (s.v x <<< 1) (highBitFlag (s.v x))).completed

end Sys2Proof.Machine
end

