-- ==== Sys2Proof/Machine/Display.lean ====
section
/-! DEFINITION. Display instructions (45_display.md R160, R161). -/
namespace Sys2Proof.Machine

/-- 00E0: every pixel 0; V[15] not written (R160). -/
def exec00E0 (s : State) : Host.Outcome State Fault Refusal :=
  .next (s.setDisplay blankDisplay).completedDrawing

/-- DXYN: the N-row sprite at I is XORed at origin (V[X] mod 64, V[Y] mod 32) and clipped; V[15] := collision. All N bytes
are range-checked first; coordinates are read before V[15] is written (R131, R161). -/
def execDXYN (x y : RegNo) (n : Nibble) (s : State) : Host.Outcome State Fault Refusal :=
  .next (s.unlessFault (s.readRangeFault n.toNat)
    (((s.setDisplay (drawSprite s.display (s.spriteRows n) (s.originColumn x) (s.originRow y))).setV 0xF#4
      (collisionFlag s.display (s.spriteRows n) (s.originColumn x) (s.originRow y))).completedDrawing))

end Sys2Proof.Machine
end

