-- ==== Sys2Proof/Machine/Flow.lean ====
section
/-! DEFINITION. Control transfer (41_flow.md R110 to R113). On entry pc is already a + 2 (R92). -/
namespace Sys2Proof.Machine

/-- 00EE: EmptyStack when sp = 0, else pc := the popped entry (R110). -/
def exec00EE (s : State) : Host.Outcome State Fault Refusal :=
  .next (s.unlessFault s.popFault ((s.dropTop.setPc s.topOfStack).completed))

/-- 1NNN: pc := NNN (R111). -/
def exec1NNN (nnn : Addr12) (s : State) : Host.Outcome State Fault Refusal :=
  .next (s.setPc (zextAddr nnn)).completed

/-- 2NNN: StackOverflow when sp = 16, else push pc (= a + 2) and pc := NNN (R112). -/
def exec2NNN (nnn : Addr12) (s : State) : Host.Outcome State Fault Refusal :=
  .next (s.unlessFault (s.pushFault s.pc) (((s.pushStack s.pc).setPc (zextAddr nnn)).completed))

/-- BNNN: pc := NNN + V[0], not reduced to 12 bits (R113). -/
def execBNNN (nnn : Addr12) (s : State) : Host.Outcome State Fault Refusal :=
  .next (s.setPc (zextAddr nnn + zextByte (s.v 0x0#4))).completed

end Sys2Proof.Machine
end

