-- ==== Sys2Proof/Machine/IndexMemory.lean ====
section
/-! DEFINITION. Index register and memory (44_index_memory.md R150 to R155). A range is checked whole before any write
(R55, R56, R185). -/
namespace Sys2Proof.Machine

/-- ANNN: I := NNN (R150). -/
def execANNN (nnn : Addr12) (s : State) : Host.Outcome State Fault Refusal :=
  .next (s.setI (zextAddr nnn)).completed

/-- FX1E: I := (I + V[X]) mod 65536, no flag (R151; D6, log 11). -/
def execFX1E (x : RegNo) (s : State) : Host.Outcome State Fault Refusal :=
  .next (s.setI (s.I + zextByte (s.v x))).completed

/-- FX29: I := FONT_BASE + 5 * V[X], V[X] not masked (R152; D25, log 20). -/
def execFX29 (x : RegNo) (s : State) : Host.Outcome State Fault Refusal :=
  .next (s.setI (Config.fontBase + 5#16 * zextByte (s.v x))).completed

/-- FX33: hundreds, tens and ones of V[X] at I, I + 1, I + 2; I unchanged (R153). -/
def execFX33 (x : RegNo) (s : State) : Host.Outcome State Fault Refusal :=
  .next (s.unlessFault (s.storeRangeFault 3) ((s.storeBytes s.I.toNat (bcdDigits (s.v x))).completed))

/-- FX55: V[0], …, V[X] at I, I + 1, …; I := I + X + 1 (R154). -/
def execFX55 (x : RegNo) (s : State) : Host.Outcome State Fault Refusal :=
  .next (s.unlessFault (s.storeRangeFault (x.toNat + 1))
    (((s.storeBytes s.I.toNat (s.regsUpTo x)).setI (s.indexPast x)).completed))

/-- FX65: V[0], …, V[X] from I, I + 1, …; I := I + X + 1 (R155). -/
def execFX65 (x : RegNo) (s : State) : Host.Outcome State Fault Refusal :=
  .next (s.unlessFault (s.readRangeFault (x.toNat + 1)) (((s.loadRegs x).setI (s.indexPast x)).completed))

end Sys2Proof.Machine
end

