-- ==== Sys2Proof/Machine/Skips.lean ====
section
/-! DEFINITION. Conditional skips (42_skips.md R120 to R126). -/
namespace Sys2Proof.Machine

/-- The common part of the skips: `pc <- (pc + 2) mod 65536` when the condition holds (R120). -/
def State.skipIf (s : State) (cond : Bool) : State := if cond then s.setPc (s.pc + 2#16) else s

/-- 3XNN: skip if V[X] = NN (R121, D22). -/
def exec3XNN (x : RegNo) (nn : Byte) (s : State) : Host.Outcome State Fault Refusal :=
  .next (s.skipIf (decide (s.v x = nn))).completed

/-- 4XNN: skip if V[X] ≠ NN (R122, D22). -/
def exec4XNN (x : RegNo) (nn : Byte) (s : State) : Host.Outcome State Fault Refusal :=
  .next (s.skipIf (decide (s.v x ≠ nn))).completed

/-- 5XY0: skip if V[X] = V[Y] (R123, D22). -/
def exec5XY0 (x y : RegNo) (s : State) : Host.Outcome State Fault Refusal :=
  .next (s.skipIf (decide (s.v x = s.v y))).completed

/-- 9XY0: skip if V[X] ≠ V[Y] (R124, D22). -/
def exec9XY0 (x y : RegNo) (s : State) : Host.Outcome State Fault Refusal :=
  .next (s.skipIf (decide (s.v x ≠ s.v y))).completed

/-- EX9E: skip if KeyDown(V[X]) = 1, asked once (R125). -/
def execEX9E (x : RegNo) (s : State) : Host.Outcome State Fault Refusal :=
  .next ((s.skipIf (s.env.keyDown (s.v x))).setEnv s.env.afterKeyDown).completed

/-- EXA1: skip if KeyDown(V[X]) = 0, asked once (R126). -/
def execEXA1 (x : RegNo) (s : State) : Host.Outcome State Fault Refusal :=
  .next ((s.skipIf (!s.env.keyDown (s.v x))).setEnv s.env.afterKeyDown).completed

end Sys2Proof.Machine
end

