-- ==== Sys2Proof/Machine/TimersKeys.lean ====
section
/-! DEFINITION. Random, timers and the key wait (46_timers_keys_random.md R170 to R174). -/
namespace Sys2Proof.Machine

/-- CXNN: V[X] := Random() AND NN, one byte drawn (R170). -/
def execCXNN (x : RegNo) (nn : Byte) (s : State) : Host.Outcome State Fault Refusal :=
  .next ((s.setV x (s.env.randomByte &&& nn)).setEnv s.env.afterRandom).completed

/-- FX07: V[X] := DT, the value before this step's tick (R171). -/
def execFX07 (x : RegNo) (s : State) : Host.Outcome State Fault Refusal :=
  .next (s.setV x s.DT).completed

/-- The effect of FX0A for what `NextKey()` found: V[X] := the code and BLOCKING reported, or the wait (R102, R172). -/
def State.keyWait (s : State) (x : RegNo) (found : Option Key) : State :=
  match found with
  | some k => ((s.setV x (zextKey k)).setEnv s.env.afterNextKey).completedBlocking
  | none => s.waitForKey

/-- FX0A: completes in the step in which a key press is presented; until then the core waits (R172; log 3). -/
def execFX0A (x : RegNo) (s : State) : Host.Outcome State Fault Refusal :=
  .next (s.keyWait x s.env.nextKey)

/-- FX15: DT := V[X] (R173). -/
def execFX15 (x : RegNo) (s : State) : Host.Outcome State Fault Refusal :=
  .next (s.setDT (s.v x)).completed

/-- FX18: ST := V[X] (R174). -/
def execFX18 (x : RegNo) (s : State) : Host.Outcome State Fault Refusal :=
  .next (s.setST (s.v x)).completed

end Sys2Proof.Machine
end

