-- ==== Sys2Proof/Machine/Step.lean ====
section
/-! DEFINITION. One step of the core (40_step_cycle.md R90), and the host's placing of one instruction at the fetch
address. -/
namespace Sys2Proof.Machine

/-- `Step` of R90: fetch, pre-increment, decode, execute, count. A fault ends in a next state whose status is `Faulted`
(R186; log 5); a core already faulted has no step (R29). -/
def step (s : State) : Host.Outcome State Fault Refusal :=
  match s.status with
  | .faulted f => .fault (.stopped f)
  | .running =>
    match s.fetchFault with
    | some f => .next (s.takeFault f)
    | none =>
      match decodeWord s.fetchWord with
      | .error _ => .next (s.advancePc.takeFault ⟨.unimplementedOpcode, s.fetchWord⟩)
      | .ok i =>
        match exec i s.advancePc with
        | .next t => .next t.finishStep
        | .fault f => .fault f
        | .refused r => .refused r

/-- The two bytes of an opcode-table word at pc and pc + 1, high byte first (R71), nothing else changed: it stands for
the host's load of a program before the run (R201; log 22). A pc that cannot be fetched from has no place for it. -/
def State.withFetchWord (s : State) (nbits w : Nat) : State :=
  match s.fetchFault with
  | some _ => s
  | none => s.storeBytes s.pc.toNat (bytesOfWord (tableWord nbits w))

end Sys2Proof.Machine
end

