-- ==== Sys2Proof/Machine/Launch.lean ====
section
/-! DEFINITION. The launch of a run (70_reset_and_hazards.md R202, R203): the reset state, the ROM in place, and what the
caller pre-seeded. -/
namespace Sys2Proof.Machine

/-- What a caller supplies before the first step (R202, R203): each part it sets, and nothing for a part it leaves. The
bytes of memory are listed with their addresses; where an address stands twice, its first byte counts. -/
structure Seed where
  V : Vector (Option Byte) 16
  I : Option Word
  pc : Option Word
  DT : Option Byte
  ST : Option Byte
  stack : Option (Vector Word 16 × Fin 17)
  display : Option Bitmap
  steps : Option (Fin 8)
  mem : List Host.Cell
deriving DecidableEq, Repr

/-- No pre-seeding: the seed of a plain launch (R203). -/
def Seed.nothing : Seed :=
  { V := Vector.replicate 16 none, I := none, pc := none, DT := none, ST := none, stack := none, display := none,
    steps := none, mem := [] }

/-- Every byte the caller sets is a byte of main memory (R50, R202). -/
def Seed.inMemory (seed : Seed) : Bool := seed.mem.all fun c => decide (c.1 < Config.memSize)

/-- The memory with the listed bytes placed, the last of the list first. -/
def Memory.place (m : Memory) (cells : List Host.Cell) : Memory := cells.foldr (fun c m => Memory.write m c.1 c.2) m

/-- The state with the seed applied; `status` is no part of a seed (R202). -/
def State.preSeed (s : State) (seed : Seed) : State :=
  { s with
    V := Vector.ofFn fun i : Fin 16 => (seed.V[i.val]'i.isLt).getD (s.V[i.val]'i.isLt)
    I := seed.I.getD s.I
    pc := seed.pc.getD s.pc
    DT := seed.DT.getD s.DT
    ST := seed.ST.getD s.ST
    stack := (seed.stack.map Prod.fst).getD s.stack
    sp := (seed.stack.map Prod.snd).getD s.sp
    display := seed.display.getD s.display
    steps := seed.steps.getD s.steps
    mem := Memory.place s.mem seed.mem }

/-- The launch state: reset, then the ROM, then the seed (R203). A ROM that does not fit (R201, D29), a seeded byte outside
memory, and a seed that alters the font table (R202) are refused; the other invariants of R38 are held by the
types. -/
def launch (rom : List Byte) (seed : Seed) : Option State :=
  match State.reset.loadRom rom with
  | none => none
  | some s => if seed.inMemory && Memory.fontIntact (s.preSeed seed).mem then some (s.preSeed seed) else none

end Sys2Proof.Machine
end

