-- ==== Sys2Proof/Safety.lean ====
section
/-! DEFINITION. The terms claims are stated in: what a state's parts are and when an instruction leaves them unchanged,
the invariants of 10_state.md R38, the launch state of a run (70_reset_and_hazards.md R203), and what counts as a safe run
(40_step_cycle.md R100). -/
namespace Sys2Proof.Machine

/-- The parts of the state, as R20 lists them, with the outputs and the environment. -/
inductive Part where
  | V | I | pc | stack | display | DT | ST | steps | status | mem | outputs | env
deriving DecidableEq, Repr

/-- The part reads in `t` as it does in `s`. -/
def Part.same (s t : State) : Part → Prop
  | .V => ∀ r, t.v r = s.v r
  | .I => t.I = s.I
  | .pc => t.pc = s.pc
  | .stack => t.stack = s.stack ∧ t.sp = s.sp
  | .display => ∀ x y, t.pixel x y = s.pixel x y
  | .DT => t.DT = s.DT
  | .ST => t.ST = s.ST
  | .steps => t.steps = s.steps
  | .status => t.status = s.status
  | .mem => ∀ a, Memory.read t.mem a = Memory.read s.mem a
  | .outputs => t.cycles = s.cycles ∧ t.fbUpdate = s.fbUpdate
  | .env => t.env = s.env

/-- The frame: from `s` to `t` every part outside `changed` is unchanged. -/
def FrameExcept (changed : List Part) (s t : State) : Prop := ∀ p, p ∉ changed → p.same s t

/-- The outputs of a completed step that reports 1 and draws nothing (R36, R96, R97). -/
def ReportsOne (t : State) : Prop := t.cycles = .one ∧ t.fbUpdate = false

/-- The part of R38 that the types do not already hold: main memory is in canonical form (so every listed address is one of
the 4096) and the font table is intact. -/
def State.Inv (s : State) : Prop := Memory.wf s.mem = true ∧ Memory.fontIntact s.mem = true

/-- No arithmetic on pc ever wraps (R24, R92, D15): pc is at most 0x10FE, and every return address in use at most
0x1000. -/
def State.PcBounded (s : State) : Prop :=
  s.pc.toNat ≤ 0x10FE ∧ ∀ k : Fin 16, k.val < s.sp.val → (s.stack[k.val]'k.isLt).toNat ≤ 0x1000

/-- The step of `s` can fetch (R91). -/
def State.Fetchable (s : State) : Prop := s.status = .running ∧ s.pc.toNat ≤ 0xFFE

/-! The launch state (R203), as the predicate a claim about a run takes for its premise. `seed` is what the caller
pre-seeded; each part below speaks of what the seed leaves. The environment's answers and the outputs, no state of the
core (R30, R32), are left open. -/

/-- Every pre-seeded part holds what the caller supplied (R202). -/
def State.HasSeed (s : State) (seed : Seed) : Prop :=
  (∀ (r : RegNo) (b : Byte), seed.V[r.toNat]'r.isLt = some b → s.v r = b) ∧
  (∀ w, seed.I = some w → s.I = w) ∧ (∀ w, seed.pc = some w → s.pc = w) ∧
  (∀ b, seed.DT = some b → s.DT = b) ∧ (∀ b, seed.ST = some b → s.ST = b) ∧
  (∀ entries n, seed.stack = some (entries, n) → s.stack = entries ∧ s.sp = n) ∧
  (∀ d, seed.display = some d → s.display = d) ∧ (∀ k, seed.steps = some k → s.steps = k) ∧
  (∀ a b, seed.mem.lookup a = some b → Memory.read s.mem a = b)

/-- The parts of a launch that rest on none of D3, D12 and D13: a ROM that fits, bytes seeded in memory alone, the
invariants, `status = Running`, and, where not pre-seeded, pc = 0x200, an empty stack, a clear display and the ROM in
place (R37, R38, R201, R202; the limit on the ROM is D29, the font bytes are D2). -/
def State.LaunchGiven (s : State) (rom : List Byte) (seed : Seed) : Prop :=
  romFits rom = true ∧ seed.inMemory = true ∧ s.Inv ∧ s.status = .running ∧
  (seed.pc = none → s.pc = 0x0200#16) ∧ (seed.stack = none → s.sp = 0) ∧
  (seed.display = none → ∀ x y, s.pixel x y = false) ∧
  (∀ i (h : i < rom.length), seed.mem.lookup (0x200 + i) = none → Memory.read s.mem (0x200 + i) = rom[i])

/-- The part of a launch that rests on D3 (log 9): `steps` = 0 unless pre-seeded. -/
def State.LaunchPhaseZero (s : State) (seed : Seed) : Prop := seed.steps = none → s.steps = 0

/-- The part of a launch that rests on D12 (log 6): V, I, DT and ST zero where not pre-seeded. -/
def State.LaunchRegistersZero (s : State) (seed : Seed) : Prop :=
  (∀ r : RegNo, seed.V[r.toNat]'r.isLt = none → s.v r = 0x00#8) ∧ (seed.I = none → s.I = 0x0000#16) ∧
  (seed.DT = none → s.DT = 0x00#8) ∧ (seed.ST = none → s.ST = 0x00#8)

/-- The part of a launch that rests on D13 (log 7): outside font and ROM, a byte not pre-seeded is zero. -/
def State.LaunchFillZero (s : State) (rom : List Byte) (seed : Seed) : Prop :=
  ∀ a, 0x050 ≤ a → (a < 0x200 ∨ 0x200 + rom.length ≤ a) → a ≤ 0xFFF → seed.mem.lookup a = none →
    Memory.read s.mem a = 0x00#8

/-- The launch state of a run with this ROM and this pre-seeding (R203). -/
def State.Launch (s : State) (rom : List Byte) (seed : Seed) : Prop :=
  s.HasSeed seed ∧ s.LaunchGiven rom seed ∧ s.LaunchPhaseZero seed ∧ s.LaunchRegistersZero seed ∧
  s.LaunchFillZero rom seed

/-- A plain launch: reset plus ROM, no pre-seeding (R203). -/
def State.PlainLaunch (s : State) (rom : List Byte) : Prop := s.Launch rom Seed.nothing

/-- The instructions that ask the environment a question (R93, R99). -/
def Instr.asks : Instr → Bool
  | .opCXNN _ _ | .opEX9E _ | .opEXA1 _ | .opFX0A _ => true
  | .op00E0 | .op00EE | .op1NNN _ | .op2NNN _ | .op3XNN _ _ | .op4XNN _ _ | .op5XY0 _ _ | .op6XNN _ _ | .op7XNN _ _
  | .op8XY0 _ _ | .op8XY1 _ _ | .op8XY2 _ _ | .op8XY3 _ _ | .op8XY4 _ _ | .op8XY5 _ _ | .op8XY6 _ _ | .op8XY7 _ _
  | .op8XYE _ _ | .op9XY0 _ _ | .opANNN _ | .opBNNN _ | .opDXYN _ _ _ | .opFX07 _ | .opFX15 _ | .opFX18 _ | .opFX1E _
  | .opFX29 _ | .opFX33 _ | .opFX55 _ | .opFX65 _ => false

/-- An access of `n` bytes at I passes 0xFFF (R55). -/
def State.PastMemory (s : State) (n : Nat) : Prop := 1 ≤ n ∧ s.I.toNat + n > 0x1000

/-- The fault table of R181 for an instruction about to execute in `s` (pc is a + 2): what it records when it faults. -/
def FaultTable (i : Instr) (s : State) (f : FaultRecord) : Prop :=
  match i with
  | .op00EE => s.sp.val = 0 ∧ f = ⟨.emptyStack, 0x0000#16⟩
  | .op2NNN _ => s.sp.val = 16 ∧ f = ⟨.stackOverflow, s.pc⟩
  | .opDXYN _ _ n => s.PastMemory n.toNat ∧ f = ⟨.addressOutOfRange, BitVec.ofNat 16 (max s.I.toNat 0x1000)⟩
  | .opFX65 x => s.PastMemory (x.toNat + 1) ∧ f = ⟨.addressOutOfRange, BitVec.ofNat 16 (max s.I.toNat 0x1000)⟩
  | .opFX33 _ => (s.PastMemory 3 ∧ f = ⟨.addressOutOfRange, BitVec.ofNat 16 (max s.I.toNat 0x1000)⟩) ∨
      (s.I.toNat < 0x050 ∧ f = ⟨.fontWrite, s.I⟩)
  | .opFX55 x => (s.PastMemory (x.toNat + 1) ∧ f = ⟨.addressOutOfRange, BitVec.ofNat 16 (max s.I.toNat 0x1000)⟩) ∨
      (s.I.toNat < 0x050 ∧ f = ⟨.fontWrite, s.I⟩)
  | .op00E0 | .op1NNN _ | .op3XNN _ _ | .op4XNN _ _ | .op5XY0 _ _ | .op6XNN _ _ | .op7XNN _ _
  | .op8XY0 _ _ | .op8XY1 _ _ | .op8XY2 _ _ | .op8XY3 _ _ | .op8XY4 _ _ | .op8XY5 _ _ | .op8XY6 _ _ | .op8XY7 _ _
  | .op8XYE _ _ | .op9XY0 _ _ | .opANNN _ | .opBNNN _ | .opCXNN _ _ | .opEX9E _ | .opEXA1 _ | .opFX07 _ | .opFX0A _
  | .opFX15 _ | .opFX18 _ | .opFX1E _ | .opFX29 _ => False

/-- The N-row sprite at I, with its origin at (V[X] mod 64, V[Y] mod 32), has a 1 bit over pixel (px, py) (R161). -/
def State.SpriteOver (s : State) (x y : RegNo) (n : Nibble) (px : Fin 64) (py : Fin 32) : Prop :=
  ∃ r b : Nat, r < n.toNat ∧ b < 8 ∧ px.val = (s.v x).toNat % 64 + b ∧ py.val = (s.v y).toNat % 32 + r ∧
    (Memory.read s.mem (s.I.toNat + r)).getLsbD (7 - b) = true

/-- A safe run of `n` steps: it ends in a state, and the core is still running there (R100). -/
def SafeRun (n : Nat) (s : State) : Prop := ∃ t : State, Sys2Proof.core.run n s = .next t ∧ t.status = .running

end Sys2Proof.Machine
end

