-- ==== Sys2Proof/Certificates/Slice0/Obligations.lean ====
section
/-! DEFINITION. The statements for the provers, from the numbered rules of spec/. In a statement about `exec`, pc is already
a + 2, a being the address the instruction was fetched from (40_step_cycle.md R92). `FrameExcept ps s t` says that every
part of the state outside `ps` reads in `t` as in `s`, memory byte by byte. -/
open Sys2Proof Sys2Proof.Machine

/-! ### Encoding and decoding -/

/-- Words written out digit by digit from R76 decode to the instruction they stand for, and illegal ones (R77) are
rejected by name. The patterns 00E0 and 1NNN are the spec's D19. -/
def Obligations.SampleWordsDecode : Prop :=
  decodeWord 0x00E0#16 = .ok .op00E0 ∧ decodeWord 0x1204#16 = .ok (.op1NNN 0x204#12) ∧
  decodeWord 0x3A10#16 = .ok (.op3XNN 0xA#4 0x10#8) ∧ decodeWord 0x8014#16 = .ok (.op8XY4 0x0#4 0x1#4) ∧
  decodeWord 0xA2F0#16 = .ok (.opANNN 0x2F0#12) ∧ decodeWord 0xD125#16 = .ok (.opDXYN 0x1#4 0x2#4 0x5#4) ∧
  decodeWord 0xC30F#16 = .ok (.opCXNN 0x3#4 0x0F#8) ∧ decodeWord 0xF555#16 = .ok (.opFX55 0x5#4) ∧
  decodeWord 0x5121#16 = .error (.unimplementedOpcode 0x5121#16) ∧
  decodeWord 0x0000#16 = .error (.unimplementedOpcode 0x0000#16)

/-- Decoding the encoding of an instruction gives it back, with every operand at every value its field admits. -/
def Obligations.DecodeOfEncode : Prop := ∀ i : Instr, decodeWord (encode i) = .ok i

/-- The other direction: a legal word has one meaning, and no bit of it is dropped. -/
def Obligations.EncodeOfDecode : Prop := ∀ (w : Word) (i : Instr), decodeWord w = .ok i → encode i = w

/-- "The masks do not overlap: every 16-bit word matches at most one row" (R76). -/
def Obligations.WordMatchesAtMostOneRow : Prop :=
  ∀ (w : Word) (r q : OpcodeRow), r ∈ opcodeMap → q ∈ opcodeMap → r.selects w = true → q.selects w = true → r = q

/-- The decoder accepts exactly the words the opcode map matches, and gives an instruction of the row that matches (R75 to
R77). -/
def Obligations.DecoderFollowsTheOpcodeMap : Prop :=
  ∀ w : Word,
    (legalWord w = false → decodeWord w = .error (.unimplementedOpcode w)) ∧
    (legalWord w = true → ∃ i, decodeWord w = .ok i ∧ i.row ∈ opcodeMap ∧ i.row.selects w = true)

/-- An illegal word faults after the pre-increment: pc = a + 2, the word recorded, nothing else changed (R182). -/
def Obligations.IllegalWordFaults : Prop :=
  ∀ (s : State) (w : Word), s.Fetchable →
    Memory.read s.mem s.pc.toNat ++ Memory.read s.mem (s.pc.toNat + 1) = w → legalWord w = false →
    step s = .next { s with
      pc := s.pc + 2#16, status := .faulted ⟨.unimplementedOpcode, w⟩, cycles := .nothing, fbUpdate := false }

/-! ### Reset and launch -/

/-- The reset table R37. The zero registers and timers rest on D12 (log 6), the fill on D13 and the font bytes on D2
(log 7), the step count on D3 (log 9): the spec's own choices. -/
def Obligations.ResetState : Prop :=
  State.reset.pc = 0x0200#16 ∧ (∀ x y, State.reset.pixel x y = false) ∧ State.reset.sp = 0 ∧
  State.reset.status = .running ∧ State.reset.steps = 0 ∧ (∀ r, State.reset.v r = 0x00#8) ∧
  State.reset.I = 0x0000#16 ∧ State.reset.DT = 0x00#8 ∧ State.reset.ST = 0x00#8 ∧
  (∀ a (h : a < Config.font.length), Memory.read State.reset.mem a = Config.font[a]) ∧ Config.font.length = 80 ∧
  (∀ a, 0x050 ≤ a → Memory.read State.reset.mem a = 0x00#8)

/-- The reset state meets both invariants. -/
def Obligations.ResetMeetsInvariants : Prop := State.reset.Inv ∧ State.reset.PcBounded

/-- Loading a ROM places its bytes verbatim from 0x200 and writes nothing else (R201). That a longer ROM is refused is the
spec's D29 (log 22). -/
def Obligations.RomLoadPlacesBytes : Prop :=
  ∀ (s : State) (rom : List Byte), Memory.wf s.mem = true →
    (rom.length ≤ 3584 → ∃ t, s.loadRom rom = some t ∧
      (∀ i (h : i < rom.length), Memory.read t.mem (0x200 + i) = rom[i]) ∧
      (∀ a, (a < 0x200 ∨ 0x200 + rom.length ≤ a) → Memory.read t.mem a = Memory.read s.mem a) ∧
      FrameExcept [.mem] s t) ∧
    (3584 < rom.length → s.loadRom rom = none)

/-! ### The step -/

/-- A step runs the decoded instruction: when the two bytes at pc decode to `i`, the step is `exec i` on the state with pc
advanced by 2, and then `finishStep` (R90 to R93). -/
def Obligations.StepRunsTheDecodedInstruction : Prop :=
  ∀ (s : State) (i : Instr), s.Fetchable →
    decodeWord (Memory.read s.mem s.pc.toNat ++ Memory.read s.mem (s.pc.toNat + 1)) = .ok i →
    step s = match exec i { s with pc := s.pc + 2#16 } with
      | .next t => .next t.finishStep
      | .fault f => .fault f
      | .refused r => .refused r

/-- The word at pc: high byte first (R71). -/
def Obligations.FetchIsBigEndian : Prop :=
  ∀ s : State,
    s.fetchWord.toNat = (Memory.read s.mem s.pc.toNat).toNat * 256 + (Memory.read s.mem (s.pc.toNat + 1)).toNat ∧
    s.fetchWord.extractLsb' 8 8 = Memory.read s.mem s.pc.toNat ∧
    s.fetchWord.extractLsb' 0 8 = Memory.read s.mem (s.pc.toNat + 1)

/-- A fetch above 0xFFE faults with pc left at a and recorded (the spec's D8 and D28; logs 13 and 21). -/
def Obligations.FetchBeyondMemoryFaults : Prop :=
  ∀ s : State, s.status = .running → 0xFFE < s.pc.toNat →
    step s = .next { s with
      status := .faulted ⟨.addressOutOfRange, s.pc⟩, cycles := .nothing, fbUpdate := false }

/-- A faulted core takes no further step (R29, R186). That the model says so as its one stop is log 5 (DEDUCED). -/
def Obligations.FaultedCoreHasNoStep : Prop :=
  ∀ (s : State) (f : FaultRecord), s.status = .faulted f → step s = .fault (.stopped f)

/-- The end of a step: one that completed is counted, and the 8th ticks both timers after the instruction has executed; one
that did not complete is not counted (R94, R95; for the fault the spec's D21, log 21). -/
def Obligations.EighthStepTicksTheTimers : Prop :=
  ∀ (s : State) (i : Instr) (t : State), s.Fetchable → decodeWord s.fetchWord = .ok i →
    exec i { s with pc := s.pc + 2#16 } = .next t →
    (t.cycles = .nothing → step s = .next t) ∧
    (t.cycles ≠ .nothing → ∃ u, step s = .next u ∧ u.steps.val = (t.steps.val + 1) % 8 ∧
      u.DT.toNat = (if t.steps.val = 7 then t.DT.toNat - 1 else t.DT.toNat) ∧
      u.ST.toNat = (if t.steps.val = 7 then t.ST.toNat - 1 else t.ST.toNat) ∧
      FrameExcept [.DT, .ST, .steps] t u)

/-- The countdown of R95: after n counted steps a timer that nothing writes has lost one for each 8, from the phase it
started at, never below zero; so a timer t > 0 is zero from step 8(t - 1) + (8 - s) on and not before. -/
def Obligations.TimersCountDown : Prop :=
  ∀ (n : Nat) (s : State),
    (State.countStep^[n] s).steps.val = (s.steps.val + n) % 8 ∧
    (State.countStep^[n] s).DT.toNat = s.DT.toNat - (s.steps.val + n) / 8 ∧
    (State.countStep^[n] s).ST.toNat = s.ST.toNat - (s.steps.val + n) / 8 ∧
    (0 < s.DT.toNat → ((State.countStep^[n] s).DT = 0x00#8 ↔ 8 * (s.DT.toNat - 1) + (8 - s.steps.val) ≤ n))

/-- The idle loop of R101: a jump to itself leaves everything but the step count, the timers and the outputs as it is for
any number of steps, the timers counting down to 0. -/
def Obligations.IdleLoopOnlyCountsTimers : Prop :=
  ∀ s : State, s.Fetchable →
    (Memory.read s.mem s.pc.toNat).toNat = 0x10 + s.pc.toNat / 256 →
    (Memory.read s.mem (s.pc.toNat + 1)).toNat = s.pc.toNat % 256 →
    ∀ n : Nat, ∃ t : State, Sys2Proof.core.run n s = .next t ∧
      FrameExcept [.DT, .ST, .steps, .outputs] s t ∧
      t.steps.val = (s.steps.val + n) % 8 ∧
      t.DT.toNat = s.DT.toNat - (s.steps.val + n) / 8 ∧ t.ST.toNat = s.ST.toNat - (s.steps.val + n) / 8

/-! ### Faults -/

/-- Nothing is refused and nothing is stuck: every instruction answers a next state in every state, and so does every step
of a running core (R10, R102). A wait is a next state by log 3 (DESIGN CHOICE), a fault by log 5 (DEDUCED). -/
def Obligations.EveryRunningCoreHasANextState : Prop :=
  (∀ (i : Instr) (s : State), ∃ t, exec i s = .next t) ∧
  (∀ s : State, s.status = .running → ∃ t, step s = .next t)

/-- Faults are precise (R185, the spec's D28, log 21): a step that ends faulted has changed nothing but pc (a + 2, or a for
a fetch fault), the status, and the outputs, which report nothing. -/
def Obligations.FaultsArePrecise : Prop :=
  ∀ (s u : State) (f : FaultRecord), step s = .next u → u.status = .faulted f →
    u = { s with
      pc := if s.pc.toNat > 0xFFE then s.pc else s.pc + 2#16,
      status := .faulted f, cycles := .nothing, fbUpdate := false }

/-- The fault table of R181: an instruction faults exactly when its row says so, recording what the row says; no other
instruction faults. Three of the kinds are the spec's D8 to D10 (log 13). -/
def Obligations.FaultsFollowTheFaultTable : Prop :=
  ∀ (i : Instr) (s t : State) (f : FaultRecord), s.status = .running → exec i s = .next t →
    (t.status = .faulted f ↔ FaultTable i s f)

/-- The faults the spec adds, instruction by instruction (D8, D9, D10, D28; logs 13 and 21): the fault is taken with no
effect of the instruction. -/
def Obligations.AddedFaultsStopBeforeAnyEffect : Prop :=
  ∀ (s : State) (nnn : Addr12) (x y : RegNo) (n : Nibble),
    (s.sp.val = 16 → exec (.op2NNN nnn) s = .next (s.takeFault ⟨.stackOverflow, s.pc⟩)) ∧
    (0x1000 < s.I.toNat + 3 → exec (.opFX33 x) s =
      .next (s.takeFault ⟨.addressOutOfRange, BitVec.ofNat 16 (max s.I.toNat 0x1000)⟩)) ∧
    (s.I.toNat < 0x050 → exec (.opFX33 x) s = .next (s.takeFault ⟨.fontWrite, s.I⟩)) ∧
    (0x1000 < s.I.toNat + (x.toNat + 1) → exec (.opFX55 x) s =
      .next (s.takeFault ⟨.addressOutOfRange, BitVec.ofNat 16 (max s.I.toNat 0x1000)⟩)) ∧
    (s.I.toNat < 0x050 → exec (.opFX55 x) s = .next (s.takeFault ⟨.fontWrite, s.I⟩)) ∧
    (0x1000 < s.I.toNat + (x.toNat + 1) → exec (.opFX65 x) s =
      .next (s.takeFault ⟨.addressOutOfRange, BitVec.ofNat 16 (max s.I.toNat 0x1000)⟩)) ∧
    (1 ≤ n.toNat → 0x1000 < s.I.toNat + n.toNat → exec (.opDXYN x y n) s =
      .next (s.takeFault ⟨.addressOutOfRange, BitVec.ofNat 16 (max s.I.toNat 0x1000)⟩))

/-! ### Invariants and rules of the whole machine -/

/-- Every step keeps main memory in canonical form, inside the 4096 bytes, with the font table intact (R38, R50, R52). -/
def Obligations.StepKeepsInvariant : Prop := ∀ s u : State, s.Inv → step s = .next u → u.Inv

/-- No step from any state changes a byte of the font table (R38, R52, R56; the spec's D9). -/
def Obligations.FontIsNeverOverwritten : Prop :=
  ∀ (s u : State) (a : Nat), a < 0x050 → step s = .next u → Memory.read u.mem a = Memory.read s.mem a

/-- Every step keeps pc at most 0x10FE and the return addresses in use at most 0x1000, so that pc arithmetic never wraps
(R24, R92, R113; the spec's D15). -/
def Obligations.StepKeepsPcBounded : Prop := ∀ s u : State, s.PcBounded → step s = .next u → u.PcBounded

/-- An instruction that asks the environment nothing is a function of the rest of the state alone, and leaves the
environment alone (R93, R99). -/
def Obligations.OnlyFourInstructionsAskTheEnvironment : Prop :=
  ∀ (i : Instr) (s t : State) (e : Env), Instr.asks i = false → exec i s = .next t →
    t.env = s.env ∧ exec i (s.setEnv e) = .next (t.setEnv e)

/-- No instruction reads ST (R27): another value of ST changes nothing but ST, and after FX18 not even that. -/
def Obligations.SoundTimerIsNeverRead : Prop :=
  ∀ (i : Instr) (s t : State) (b : Byte), exec i s = .next t →
    ((∀ x, i ≠ .opFX18 x) → exec i (s.setST b) = .next (t.setST b)) ∧
    (∀ x, i = .opFX18 x → exec i (s.setST b) = .next t)

/-- Entries above the top of the stack are not observable (R25): two states that differ only there step alike, and differ
only there afterwards. -/
def Obligations.DeadStackEntriesAreUnobservable : Prop :=
  ∀ (s u : State) (other : Vector Word 16),
    (∀ k : Fin 16, k.val < s.sp.val → other[k.val]'k.isLt = s.stack[k.val]'k.isLt) → step s = .next u →
    ∃ u' : State, step { s with stack := other } = .next u' ∧ u' = { u with stack := u'.stack } ∧
      ∀ k : Fin 16, k.val < u.sp.val → u'.stack[k.val]'k.isLt = u.stack[k.val]'k.isLt

/-- 00E0 and DXYN are the only writers of the display, and `fb_update` is raised after them, completed, and after nothing
else (R26, R36). That no other step changes a pixel rests on the display being a separate store, the spec's D16 (log 17,
DESIGN CHOICE); which steps raise `fb_update` is its D17 (log 18, DESIGN CHOICE). -/
def Obligations.OnlyDrawingInstructionsTouchTheDisplay : Prop :=
  ∀ s u : State, step s = .next u →
    ((∃ x y, u.pixel x y ≠ s.pixel x y) ∨ u.fbUpdate = true →
      decodeWord s.fetchWord = .ok .op00E0 ∨ ∃ x y n, decodeWord s.fetchWord = .ok (.opDXYN x y n)) ∧
    (u.status = .running →
      (decodeWord s.fetchWord = .ok .op00E0 ∨ ∃ x y n, decodeWord s.fetchWord = .ok (.opDXYN x y n)) →
      u.fbUpdate = true)

/-- Only FX33 and FX55 write main memory (R50). -/
def Obligations.OnlyStoresTouchMemory : Prop :=
  ∀ (s u : State) (a : Nat), step s = .next u → Memory.read u.mem a ≠ Memory.read s.mem a →
    ∃ x, decodeWord s.fetchWord = .ok (.opFX33 x) ∨ decodeWord s.fetchWord = .ok (.opFX55 x)

/-- Only 2NNN pushes and only 00EE pops; every other step leaves the stack alone (R25, R114). That no store reaches an entry
rests on the stack being a separate store, the spec's D16 (log 17, DESIGN CHOICE). -/
def Obligations.OnlyCallAndReturnTouchTheStack : Prop :=
  ∀ s u : State, step s = .next u →
    (u.sp = s.sp ∧ u.stack = s.stack) ∨
    (u.sp.val = s.sp.val + 1 ∧ ∃ nnn, decodeWord s.fetchWord = .ok (.op2NNN nnn)) ∨
    (u.sp.val + 1 = s.sp.val ∧ u.stack = s.stack ∧ decodeWord s.fetchWord = .ok .op00EE)

/-! ### Main memory -/

/-- The accessors MemRead and MemWrite of R53 and R54: what is written is read back, no other byte changes, and a write
keeps the canonical form. Their own faults are the spec's D8 and D9 (log 13). -/
def Obligations.MemoryAccessorsReadWhatWasWritten : Prop :=
  ∀ (s : State) (a : Nat) (b : Byte), Memory.wf s.mem = true →
    (0xFFF < a → s.memRead a = .error ⟨.addressOutOfRange, BitVec.ofNat 16 (a % 65536)⟩ ∧
      s.memWrite a b = .error ⟨.addressOutOfRange, BitVec.ofNat 16 (a % 65536)⟩) ∧
    (a < 0x050 → s.memWrite a b = .error ⟨.fontWrite, BitVec.ofNat 16 a⟩) ∧
    (0x050 ≤ a → a ≤ 0xFFF → ∃ t, s.memWrite a b = .ok t ∧ t.memRead a = .ok b ∧
      (∀ c, c ≠ a → t.memRead c = s.memRead c) ∧ Memory.wf t.mem = true ∧ FrameExcept [.mem] s t)

/-- A store is seen by the next fetch of its bytes, at whatever distance (R65). -/
def Obligations.StoreIsSeenByLaterFetch : Prop :=
  ∀ (s t u : State) (x : RegNo), Memory.wf s.mem = true → 0x050 ≤ s.I.toNat →
    u.mem = t.mem → u.pc = s.I →
    (1 ≤ x.toNat → s.I.toNat + (x.toNat + 1) ≤ 0x1000 → exec (.opFX55 x) s = .next t →
      u.fetchWord = s.v 0x0#4 ++ s.v 0x1#4) ∧
    (s.I.toNat + 3 ≤ 0x1000 → exec (.opFX33 x) s = .next t →
      u.fetchWord = BitVec.ofNat 8 ((s.v x).toNat / 100) ++ BitVec.ofNat 8 ((s.v x).toNat / 10 % 10))

/-! ### Control transfer -/

/-- 00EE (R110, R183): with a call pending, pc is the popped entry and sp one less, the entries keep their values and
nothing else changes; with none, EmptyStack, and `peekStack` fails too. -/
def Obligations.ReturnPopsTheTopEntry : Prop :=
  ∀ s : State,
    (∀ h : 0 < s.sp.val, ∃ t, exec .op00EE s = .next t ∧
      t.pc = s.stack[s.sp.val - 1]'(by have := s.sp.isLt; omega) ∧ t.sp.val = s.sp.val - 1 ∧ t.stack = s.stack ∧
      FrameExcept [.pc, .stack, .outputs] s t ∧ ReportsOne t ∧
      s.peekStack = .ok (s.stack[s.sp.val - 1]'(by have := s.sp.isLt; omega))) ∧
    (s.sp.val = 0 → exec .op00EE s = .next { s with
        status := .faulted ⟨.emptyStack, 0x0000#16⟩, cycles := .nothing, fbUpdate := false } ∧
      s.peekStack = .error ⟨.emptyStack, 0x0000#16⟩)

/-- 1NNN sets pc to NNN, BNNN to NNN + V[0] (R111, R113); neither touches anything else. That 1NNN is the jump is the
spec's D19 (log 19, PRESUMED). -/
def Obligations.JumpsSetPc : Prop :=
  ∀ (s : State) (nnn : Addr12),
    (∃ t, exec (.op1NNN nnn) s = .next t ∧ t.pc.toNat = nnn.toNat ∧ FrameExcept [.pc, .outputs] s t ∧ ReportsOne t) ∧
    (∃ t, exec (.opBNNN nnn) s = .next t ∧ t.pc.toNat = nnn.toNat + (s.v 0x0#4).toNat ∧
      FrameExcept [.pc, .outputs] s t ∧ ReportsOne t)

/-- 2NNN with room on the stack pushes the already advanced pc and jumps; the other entries stay (R112). The full stack
is AddedFaultsStopBeforeAnyEffect. -/
def Obligations.CallPushesPcAndJumps : Prop :=
  ∀ (s : State) (nnn : Addr12), ∀ h : s.sp.val < 16, ∃ t, exec (.op2NNN nnn) s = .next t ∧
    t.pc.toNat = nnn.toNat ∧ t.sp.val = s.sp.val + 1 ∧ t.stack[s.sp.val]'h = s.pc ∧
    (∀ k : Fin 16, k.val ≠ s.sp.val → t.stack[k.val]'k.isLt = s.stack[k.val]'k.isLt) ∧
    FrameExcept [.pc, .stack, .outputs] s t ∧ ReportsOne t

/-- A call and, at any later point with the stack back at the same depth and its top entry as pushed, a return: sp is as
before the call and pc the address after the call (R114). -/
def Obligations.ReturnUndoesCall : Prop :=
  ∀ (s t m : State) (nnn : Addr12), ∀ h : s.sp.val < 16, exec (.op2NNN nnn) s = .next t → m.sp = t.sp →
    m.stack[s.sp.val]'h = t.stack[s.sp.val]'h →
    ∃ u, exec .op00EE m = .next u ∧ u.pc = s.pc ∧ u.sp = s.sp

/-! ### Skips -/

/-- 3XNN, 4XNN, 5XY0, 9XY0 (R120 to R124): pc moves a further 2 exactly when the condition holds, and nothing else changes.
The conditions are the spec's D22 (log 19), the modulo its D15 (log 16). -/
def Obligations.RegisterSkipsMovePc : Prop :=
  ∀ (s : State) (x y : RegNo) (nn : Byte),
    (∃ t, exec (.op3XNN x nn) s = .next t ∧
      t.pc.toNat = (if (s.v x).toNat = nn.toNat then (s.pc.toNat + 2) % 65536 else s.pc.toNat) ∧
      FrameExcept [.pc, .outputs] s t ∧ ReportsOne t) ∧
    (∃ t, exec (.op4XNN x nn) s = .next t ∧
      t.pc.toNat = (if (s.v x).toNat = nn.toNat then s.pc.toNat else (s.pc.toNat + 2) % 65536) ∧
      FrameExcept [.pc, .outputs] s t ∧ ReportsOne t) ∧
    (∃ t, exec (.op5XY0 x y) s = .next t ∧
      t.pc.toNat = (if (s.v x).toNat = (s.v y).toNat then (s.pc.toNat + 2) % 65536 else s.pc.toNat) ∧
      FrameExcept [.pc, .outputs] s t ∧ ReportsOne t) ∧
    (∃ t, exec (.op9XY0 x y) s = .next t ∧
      t.pc.toNat = (if (s.v x).toNat = (s.v y).toNat then s.pc.toNat else (s.pc.toNat + 2) % 65536) ∧
      FrameExcept [.pc, .outputs] s t ∧ ReportsOne t)

/-- EX9E and EXA1 (R125, R126): for V[X] up to 15 the skip follows bit V[X] of the sample of `key_down` that answers, in
opposite senses; one question is asked, for every V[X], and nothing but pc and the environment changes. -/
def Obligations.KeySkipsFollowTheKeypad : Prop :=
  ∀ (s : State) (x : RegNo),
    (∃ t, exec (.opEX9E x) s = .next t ∧ (t.pc = s.pc + 2#16 ∨ t.pc = s.pc) ∧
      ((s.v x).toNat ≤ 15 → t.pc = if s.env.keypad.keyDown.getLsbD (s.v x).toNat then s.pc + 2#16 else s.pc) ∧
      t.env = s.env.afterKeyDown ∧ FrameExcept [.pc, .outputs, .env] s t ∧ ReportsOne t) ∧
    (∃ t, exec (.opEXA1 x) s = .next t ∧ (t.pc = s.pc + 2#16 ∨ t.pc = s.pc) ∧
      ((s.v x).toNat ≤ 15 → t.pc = if s.env.keypad.keyDown.getLsbD (s.v x).toNat then s.pc else s.pc + 2#16) ∧
      t.env = s.env.afterKeyDown ∧ FrameExcept [.pc, .outputs, .env] s t ∧ ReportsOne t)

/-- A key code above 15 (the spec's D11, log 14): both the skip and the non-skip are admitted, for EX9E and for EXA1,
whatever the rest of the state. -/
def Obligations.KeyCodeAbove15AdmitsBothOutcomes : Prop :=
  ∀ (s : State) (x : RegNo) (skip : Bool), 15 < (s.v x).toNat →
    (∃ e t, exec (.opEX9E x) (s.setEnv e) = .next t ∧ t.pc = if skip then s.pc + 2#16 else s.pc) ∧
    (∃ e t, exec (.opEXA1 x) (s.setEnv e) = .next t ∧ t.pc = if skip then s.pc + 2#16 else s.pc)

/-! ### Registers, arithmetic, flags -/

/-- 6XNN, 7XNN, 8XY0 to 8XY3 (R132 to R137, which operation is whose being the spec's D23, log 19): V[X] alone changes,
VF among the others only when X = 15 as an ordinary register. -/
def Obligations.LoadsAndLogicWriteOneRegister : Prop :=
  ∀ (s : State) (x y : RegNo) (nn : Byte),
    (∃ t, exec (.op6XNN x nn) s = .next t ∧ t.v x = nn ∧
      (∀ r, r ≠ x → t.v r = s.v r) ∧ FrameExcept [.V, .outputs] s t ∧ ReportsOne t) ∧
    (∃ t, exec (.op7XNN x nn) s = .next t ∧ (t.v x).toNat = ((s.v x).toNat + nn.toNat) % 256 ∧
      (∀ r, r ≠ x → t.v r = s.v r) ∧ FrameExcept [.V, .outputs] s t ∧ ReportsOne t) ∧
    (∃ t, exec (.op8XY0 x y) s = .next t ∧ t.v x = s.v y ∧
      (∀ r, r ≠ x → t.v r = s.v r) ∧ FrameExcept [.V, .outputs] s t ∧ ReportsOne t) ∧
    (∃ t, exec (.op8XY1 x y) s = .next t ∧ (∀ k < 8, (t.v x).getLsbD k = ((s.v x).getLsbD k || (s.v y).getLsbD k)) ∧
      (∀ r, r ≠ x → t.v r = s.v r) ∧ FrameExcept [.V, .outputs] s t ∧ ReportsOne t) ∧
    (∃ t, exec (.op8XY2 x y) s = .next t ∧ (∀ k < 8, (t.v x).getLsbD k = ((s.v x).getLsbD k && (s.v y).getLsbD k)) ∧
      (∀ r, r ≠ x → t.v r = s.v r) ∧ FrameExcept [.V, .outputs] s t ∧ ReportsOne t) ∧
    (∃ t, exec (.op8XY3 x y) s = .next t ∧ (∀ k < 8, (t.v x).getLsbD k = ((s.v x).getLsbD k ^^ (s.v y).getLsbD k)) ∧
      (∀ r, r ≠ x → t.v r = s.v r) ∧ FrameExcept [.V, .outputs] s t ∧ ReportsOne t)

/-- 8XY4 (R138): V[X] is the sum modulo 256 and VF is 1 exactly when the sum exceeds 255. The form X = 15 is
FlagWinsWhenXIsVF. -/
def Obligations.AddSetsCarry : Prop :=
  ∀ (s : State) (x y : RegNo), x ≠ 0xF#4 → ∃ t, exec (.op8XY4 x y) s = .next t ∧
    (t.v x).toNat = ((s.v x).toNat + (s.v y).toNat) % 256 ∧
    (t.v 0xF#4).toNat = (if (s.v x).toNat + (s.v y).toNat > 255 then 1 else 0) ∧
    (∀ r, r ≠ x → r ≠ 0xF#4 → t.v r = s.v r) ∧ FrameExcept [.V, .outputs] s t ∧ ReportsOne t

/-- 8XY5 (R139): V[X] is the difference modulo 256; VF is 1 exactly when V[X] ≥ V[Y], a polarity that is the spec's D5
(log 10). The form X = 15 is FlagWinsWhenXIsVF. -/
def Obligations.SubtractSetsNoBorrow : Prop :=
  ∀ (s : State) (x y : RegNo), x ≠ 0xF#4 → ∃ t, exec (.op8XY5 x y) s = .next t ∧
    (t.v x).toNat = ((s.v x).toNat + 256 - (s.v y).toNat) % 256 ∧
    (t.v 0xF#4).toNat = (if (s.v x).toNat ≥ (s.v y).toNat then 1 else 0) ∧
    (∀ r, r ≠ x → r ≠ 0xF#4 → t.v r = s.v r) ∧ FrameExcept [.V, .outputs] s t ∧ ReportsOne t

/-- 8XY7 (R141): V[X] is V[Y] - V[X] modulo 256 and VF is 1 exactly when V[Y] ≥ V[X]. The form X = 15 is
FlagWinsWhenXIsVF. -/
def Obligations.ReverseSubtractSetsNoBorrow : Prop :=
  ∀ (s : State) (x y : RegNo), x ≠ 0xF#4 → ∃ t, exec (.op8XY7 x y) s = .next t ∧
    (t.v x).toNat = ((s.v y).toNat + 256 - (s.v x).toNat) % 256 ∧
    (t.v 0xF#4).toNat = (if (s.v y).toNat ≥ (s.v x).toNat then 1 else 0) ∧
    (∀ r, r ≠ x → r ≠ 0xF#4 → t.v r = s.v r) ∧ FrameExcept [.V, .outputs] s t ∧ ReportsOne t

/-- 8XY6 and 8XYE (R140, R142): V[X] shifts by one, VF is the bit shifted out, Y does not matter. The form X = 15 is
FlagWinsWhenXIsVF. -/
def Obligations.ShiftsKeepTheBitShiftedOut : Prop :=
  ∀ (s : State) (x y : RegNo), x ≠ 0xF#4 →
    (∃ t, exec (.op8XY6 x y) s = .next t ∧ (t.v x).toNat = (s.v x).toNat / 2 ∧
      (t.v 0xF#4).toNat = (s.v x).toNat % 2 ∧
      (∀ r, r ≠ x → r ≠ 0xF#4 → t.v r = s.v r) ∧ FrameExcept [.V, .outputs] s t ∧ ReportsOne t) ∧
    (∃ t, exec (.op8XYE x y) s = .next t ∧ (t.v x).toNat = 2 * (s.v x).toNat % 256 ∧
      (t.v 0xF#4).toNat = (s.v x).toNat / 128 ∧
      (∀ r, r ≠ x → r ≠ 0xF#4 → t.v r = s.v r) ∧ FrameExcept [.V, .outputs] s t ∧ ReportsOne t)

/-- X = 15 on the five flag-writing instructions: the flag, computed from the old values, is what remains in VF (R131, the
spec's D7, log 12; for 8XY5 also D5, log 10). -/
def Obligations.FlagWinsWhenXIsVF : Prop :=
  ∀ (s : State) (y : RegNo),
    (∃ t, exec (.op8XY4 0xF#4 y) s = .next t ∧
      (t.v 0xF#4).toNat = (if (s.v 0xF#4).toNat + (s.v y).toNat > 255 then 1 else 0) ∧
      (∀ r, r ≠ 0xF#4 → t.v r = s.v r) ∧ FrameExcept [.V, .outputs] s t ∧ ReportsOne t) ∧
    (∃ t, exec (.op8XY5 0xF#4 y) s = .next t ∧
      (t.v 0xF#4).toNat = (if (s.v 0xF#4).toNat ≥ (s.v y).toNat then 1 else 0) ∧
      (∀ r, r ≠ 0xF#4 → t.v r = s.v r) ∧ FrameExcept [.V, .outputs] s t ∧ ReportsOne t) ∧
    (∃ t, exec (.op8XY6 0xF#4 y) s = .next t ∧ (t.v 0xF#4).toNat = (s.v 0xF#4).toNat % 2 ∧
      (∀ r, r ≠ 0xF#4 → t.v r = s.v r) ∧ FrameExcept [.V, .outputs] s t ∧ ReportsOne t) ∧
    (∃ t, exec (.op8XY7 0xF#4 y) s = .next t ∧
      (t.v 0xF#4).toNat = (if (s.v y).toNat ≥ (s.v 0xF#4).toNat then 1 else 0) ∧
      (∀ r, r ≠ 0xF#4 → t.v r = s.v r) ∧ FrameExcept [.V, .outputs] s t ∧ ReportsOne t) ∧
    (∃ t, exec (.op8XYE 0xF#4 y) s = .next t ∧ (t.v 0xF#4).toNat = (s.v 0xF#4).toNat / 128 ∧
      (∀ r, r ≠ 0xF#4 → t.v r = s.v r) ∧ FrameExcept [.V, .outputs] s t ∧ ReportsOne t)

/-- 8XY5 and then 8XY4 with the same X and Y restores V[X], and the two flags are opposite (R143; the polarity is the
spec's D5, log 10). -/
def Obligations.SubtractThenAddRestores : Prop :=
  ∀ (s t u : State) (x y : RegNo), x ≠ y → x ≠ 0xF#4 → y ≠ 0xF#4 →
    exec (.op8XY5 x y) s = .next t → exec (.op8XY4 x y) t = .next u →
    u.v x = s.v x ∧ (t.v 0xF#4).toNat + (u.v 0xF#4).toNat = 1

/-- A flag write stores 0x00 or 0x01 (R22, R143): after each of the six flag-writing instructions that completes, VF is 0
or 1. For X = 15 on the five of the ALU it is so because the flag is written last, the spec's D7 (log 12, DESIGN
CHOICE). -/
def Obligations.FlagIsZeroOrOne : Prop :=
  ∀ (s t : State) (x y : RegNo) (n : Nibble) (i : Instr),
    i ∈ [Instr.op8XY4 x y, .op8XY5 x y, .op8XY6 x y, .op8XY7 x y, .op8XYE x y, .opDXYN x y n] →
    exec i s = .next t → t.cycles ≠ .nothing → t.v 0xF#4 = 0x00#8 ∨ t.v 0xF#4 = 0x01#8

/-! ### Index register and memory -/

/-- ANNN: I is the 12-bit literal, zero-extended (R150). -/
def Obligations.LoadIndexLiteral : Prop :=
  ∀ (s : State) (nnn : Addr12), ∃ t, exec (.opANNN nnn) s = .next t ∧ t.I.toNat = nnn.toNat ∧
    FrameExcept [.I, .outputs] s t ∧ ReportsOne t

/-- FX1E and FX29 (R151, R152): I is the 16-bit sum, with no flag written (the spec's D6 and D24, logs 11 and 20), or 5
times V[X], not masked (the spec's D25, log 20). -/
def Obligations.IndexArithmetic : Prop :=
  ∀ (s : State) (x : RegNo),
    (∃ t, exec (.opFX1E x) s = .next t ∧ t.I.toNat = (s.I.toNat + (s.v x).toNat) % 65536 ∧
      FrameExcept [.I, .outputs] s t ∧ ReportsOne t) ∧
    (∃ t, exec (.opFX29 x) s = .next t ∧ t.I.toNat = 5 * (s.v x).toNat ∧
      FrameExcept [.I, .outputs] s t ∧ ReportsOne t)

/-- FX33 with its three bytes in range: hundreds, tens and ones of V[X] at I, I + 1 and I + 2, every other byte and
everything else unchanged (R153). Its faults are AddedFaultsStopBeforeAnyEffect. -/
def Obligations.BcdStoreWritesThreeDigits : Prop :=
  ∀ (s : State) (x : RegNo), Memory.wf s.mem = true → 0x050 ≤ s.I.toNat → s.I.toNat + 2 ≤ 0xFFF →
    ∃ t, exec (.opFX33 x) s = .next t ∧
      (Memory.read t.mem s.I.toNat).toNat = (s.v x).toNat / 100 ∧
      (Memory.read t.mem (s.I.toNat + 1)).toNat = (s.v x).toNat / 10 % 10 ∧
      (Memory.read t.mem (s.I.toNat + 2)).toNat = (s.v x).toNat % 10 ∧
      (∀ a, (a < s.I.toNat ∨ s.I.toNat + 2 < a) → Memory.read t.mem a = Memory.read s.mem a) ∧
      FrameExcept [.mem, .outputs] s t ∧ ReportsOne t

/-- FX55 with its range in memory: V[i] at I + i for i up to X, every other byte unchanged, I past the range, nothing else
changed (R154). Its faults are AddedFaultsStopBeforeAnyEffect. -/
def Obligations.StoreRegistersWritesTheRange : Prop :=
  ∀ (s : State) (x : RegNo), Memory.wf s.mem = true → 0x050 ≤ s.I.toNat → s.I.toNat + x.toNat ≤ 0xFFF →
    ∃ t, exec (.opFX55 x) s = .next t ∧
      (∀ r : RegNo, r.toNat ≤ x.toNat → Memory.read t.mem (s.I.toNat + r.toNat) = s.v r) ∧
      (∀ a, (a < s.I.toNat ∨ s.I.toNat + x.toNat < a) → Memory.read t.mem a = Memory.read s.mem a) ∧
      t.I.toNat = s.I.toNat + x.toNat + 1 ∧ FrameExcept [.mem, .I, .outputs] s t ∧ ReportsOne t

/-- FX65 with its range in memory: V[i] is the byte at I + i for i up to X, the registers above X unchanged, I past the
range, nothing else changed (R155). Its fault is AddedFaultsStopBeforeAnyEffect. -/
def Obligations.LoadRegistersReadsTheRange : Prop :=
  ∀ (s : State) (x : RegNo), s.I.toNat + x.toNat ≤ 0xFFF →
    ∃ t, exec (.opFX65 x) s = .next t ∧
      (∀ r : RegNo, r.toNat ≤ x.toNat → t.v r = Memory.read s.mem (s.I.toNat + r.toNat)) ∧
      (∀ r : RegNo, x.toNat < r.toNat → t.v r = s.v r) ∧
      t.I.toNat = s.I.toNat + x.toNat + 1 ∧ FrameExcept [.V, .I, .outputs] s t ∧ ReportsOne t

/-- FX55, then ANNN back to the start, then FX65 with the same X: every register is as it was and I is past the range
(R156). -/
def Obligations.StoreThenLoadRestoresRegisters : Prop :=
  ∀ (s : State) (x : RegNo) (nnn : Addr12), Memory.wf s.mem = true → s.I.toNat = nnn.toNat → 0x050 ≤ s.I.toNat →
    s.I.toNat + x.toNat ≤ 0xFFF →
    ∃ t u w, exec (.opFX55 x) s = .next t ∧ exec (.opANNN nnn) t = .next u ∧ exec (.opFX65 x) u = .next w ∧
      (∀ r, w.v r = s.v r) ∧ w.I.toNat = s.I.toNat + x.toNat + 1

/-! ### Display -/

/-- 00E0: all pixels 0, V[15] and everything else unchanged, `fb_update` raised (R160). -/
def Obligations.ClearScreenClearsEveryPixel : Prop :=
  ∀ s : State, ∃ t, exec .op00E0 s = .next t ∧ (∀ x y, t.pixel x y = false) ∧
    FrameExcept [.display, .outputs] s t ∧ t.cycles = .one ∧ t.fbUpdate = true

/-- DXYN with its N bytes in memory (R161): a pixel under a sprite bit of 1 is inverted, every other pixel stays; VF is 1
exactly when a set pixel lay under such a bit, else 0; the origin wraps and the body clips. That clipped rows count for
the range is the spec's D26 (log 20); the range fault is AddedFaultsStopBeforeAnyEffect. -/
def Obligations.DrawXorsTheSprite : Prop :=
  ∀ (s : State) (x y : RegNo) (n : Nibble), (n.toNat = 0 ∨ s.I.toNat + n.toNat ≤ 0x1000) →
    ∃ t, exec (.opDXYN x y n) s = .next t ∧
      (∀ px py, s.SpriteOver x y n px py → t.pixel px py = !s.pixel px py) ∧
      (∀ px py, ¬ s.SpriteOver x y n px py → t.pixel px py = s.pixel px py) ∧
      (t.v 0xF#4 = 0x01#8 ↔ ∃ px py, s.SpriteOver x y n px py ∧ s.pixel px py = true) ∧
      (t.v 0xF#4 = 0x00#8 ↔ ¬ ∃ px py, s.SpriteOver x y n px py ∧ s.pixel px py = true) ∧
      (∀ r, r ≠ 0xF#4 → t.v r = s.v r) ∧
      FrameExcept [.V, .display, .outputs] s t ∧ t.cycles = .one ∧ t.fbUpdate = true

/-- Drawing the same sprite at the same place twice restores the display, and the second draw's VF is 1 exactly when a pixel
was set under a sprite bit before it; on a display clear under the sprite, exactly when the unclipped part has a 1 bit
(R162 (a)). X and Y are not 15: VF, written by the first draw, would move the sprite. -/
def Obligations.DrawTwiceRestoresTheDisplay : Prop :=
  ∀ (s : State) (x y : RegNo) (n : Nibble), x ≠ 0xF#4 → y ≠ 0xF#4 → (n.toNat = 0 ∨ s.I.toNat + n.toNat ≤ 0x1000) →
    ∃ t u, exec (.opDXYN x y n) s = .next t ∧ exec (.opDXYN x y n) t = .next u ∧
      (∀ px py, u.pixel px py = s.pixel px py) ∧
      (u.v 0xF#4 = 0x01#8 ↔ ∃ px py, s.SpriteOver x y n px py ∧ t.pixel px py = true) ∧
      ((∀ px py, s.SpriteOver x y n px py → s.pixel px py = false) →
        (u.v 0xF#4 = 0x01#8 ↔ ∃ px py, s.SpriteOver x y n px py))

/-- A draw changes no pixel outside the rectangle of columns ox to min(ox + 7, 63) and rows oy to min(oy + N - 1, 31)
(R162 (d)). -/
def Obligations.DrawStaysInItsRectangle : Prop :=
  ∀ (s t : State) (x y : RegNo) (n : Nibble) (px : Fin 64) (py : Fin 32), exec (.opDXYN x y n) s = .next t →
    t.pixel px py ≠ s.pixel px py →
    (s.v x).toNat % 64 ≤ px.val ∧ px.val ≤ min ((s.v x).toNat % 64 + 7) 63 ∧
    (s.v y).toNat % 32 ≤ py.val ∧ py.val < (s.v y).toNat % 32 + n.toNat ∧ py.val ≤ 31

/-! ### Random, timers, keys -/

/-- CXNN (R170): V[X] is the environment's byte under the mask NN, one byte being drawn; every value under the mask is
possible, and two draws are independent. -/
def Obligations.RandomByteUnderMask : Prop :=
  ∀ (s : State) (x : RegNo) (nn : Byte),
    (∃ t, exec (.opCXNN x nn) s = .next t ∧ t.v x = s.env.randomByte &&& nn ∧ t.v x &&& ~~~nn = 0x00#8 ∧
      (∀ r, r ≠ x → t.v r = s.v r) ∧ t.env = s.env.afterRandom ∧
      FrameExcept [.V, .outputs, .env] s t ∧ ReportsOne t) ∧
    (∀ v v' : Byte, v &&& nn = v → v' &&& nn = v' → ∃ e t u, exec (.opCXNN x nn) (s.setEnv e) = .next t ∧
      exec (.opCXNN x nn) t = .next u ∧ t.v x = v ∧ u.v x = v')

/-- FX07 copies DT to V[X], FX15 sets DT and FX18 sets ST from V[X]; nothing else changes. On a step that is an 8th step FX07
has read the value before the tick, and what FX15 or FX18 wrote has ticked at once (R171, R173, R174). -/
def Obligations.TimerMoves : Prop :=
  (∀ (s : State) (x : RegNo),
    (∃ t, exec (.opFX07 x) s = .next t ∧ t.v x = s.DT ∧ (∀ r, r ≠ x → t.v r = s.v r) ∧
      FrameExcept [.V, .outputs] s t ∧ ReportsOne t) ∧
    (∃ t, exec (.opFX15 x) s = .next t ∧ t.DT = s.v x ∧ FrameExcept [.DT, .outputs] s t ∧ ReportsOne t) ∧
    (∃ t, exec (.opFX18 x) s = .next t ∧ t.ST = s.v x ∧ FrameExcept [.ST, .outputs] s t ∧ ReportsOne t)) ∧
  (∀ (s : State) (x : RegNo), s.Fetchable →
    (decodeWord s.fetchWord = .ok (.opFX07 x) → ∃ u, step s = .next u ∧ u.v x = s.DT ∧
      u.DT.toNat = if s.steps.val = 7 then s.DT.toNat - 1 else s.DT.toNat) ∧
    (decodeWord s.fetchWord = .ok (.opFX15 x) → ∃ u, step s = .next u ∧
      u.DT.toNat = if s.steps.val = 7 then (s.v x).toNat - 1 else (s.v x).toNat) ∧
    (decodeWord s.fetchWord = .ok (.opFX18 x) → ∃ u, step s = .next u ∧
      u.ST.toNat = if s.steps.val = 7 then (s.v x).toNat - 1 else (s.v x).toNat))

/-- FX0A (R172): with a key press presented, V[X] is its code, zero-extended, the press is consumed and BLOCKING is
reported. With none presented it does not complete: WaitingForAKeyChangesNothing. -/
def Obligations.KeyWaitStoresThePressedKey : Prop :=
  ∀ (s : State) (x : RegNo) (k : Key), s.env.nextKey = some k →
    ∃ t, exec (.opFX0A x) s = .next t ∧ (t.v x).toNat = k.toNat ∧ (∀ r, r ≠ x → t.v r = s.v r) ∧
      t.env = s.env.afterNextKey ∧ t.cycles = .blocking ∧ t.fbUpdate = false ∧
      FrameExcept [.V, .outputs, .env] s t

/-- While FX0A waits no state of the core changes, for any number of instants without a press: not pc, not `steps`, not the
timers; and no other instruction waits (R102). That an instant of waiting is a step of the model, moving the environment
alone, is log 3 (DESIGN CHOICE). -/
def Obligations.WaitingForAKeyChangesNothing : Prop :=
  (∀ (s : State) (x : RegNo), s.Fetchable → decodeWord s.fetchWord = .ok (.opFX0A x) →
    (s.env.nextKey = none → step s = .next { s with
      cycles := .nothing, fbUpdate := false, env := s.env.afterNextKey }) ∧
    (∀ (n : Nat) (later : List (Option Key)), s.env.presses = List.replicate n none ++ later →
      ∃ t : State, Sys2Proof.core.run n s = .next t ∧ FrameExcept [.outputs, .env] s t)) ∧
  (∀ (i : Instr) (s t : State), (∀ x, i ≠ .opFX0A x) → exec i s = .next t →
    t.cycles ≠ .nothing ∨ ∃ f, t.status = .faulted f)
end

