-- ==== Sys2Proof/Laws/Decode.lean ====
section
/-! SUPPORT. The fields and the formats of an instruction word as numbers (30_encoding.md R72, R73), each field of each
format, and each word put together again from its fields. -/
namespace Sys2Proof

/-! The formats as numbers -/

theorem formatNNN_toNat (op : BitVec 4) (nnn : Addr12) : (formatNNN op nnn).toNat = op.toNat * 4096 + nnn.toNat := by
  rw [formatNNN, BitVec.toNat_append, Nat.shiftLeft_eq, Nat.mul_comm, ← Nat.two_pow_add_eq_or_of_lt nnn.isLt]

theorem formatXNN_toNat (op : BitVec 4) (x : RegNo) (nn : Byte) :
    (formatXNN op x nn).toNat = op.toNat * 4096 + x.toNat * 256 + nn.toNat := by
  rw [formatXNN, BitVec.toNat_append, Nat.shiftLeft_eq, Nat.mul_comm, ← Nat.two_pow_add_eq_or_of_lt nn.isLt]
  rw [BitVec.toNat_append, Nat.shiftLeft_eq, Nat.mul_comm op.toNat, ← Nat.two_pow_add_eq_or_of_lt x.isLt]
  omega

theorem formatXYN_toNat (op : BitVec 4) (x y : RegNo) (n : BitVec 4) :
    (formatXYN op x y n).toNat = op.toNat * 4096 + x.toNat * 256 + y.toNat * 16 + n.toNat := by
  rw [formatXYN, BitVec.toNat_append, Nat.shiftLeft_eq, Nat.mul_comm, ← Nat.two_pow_add_eq_or_of_lt n.isLt]
  rw [BitVec.toNat_append, Nat.shiftLeft_eq, Nat.mul_comm (BitVec.toNat _), ← Nat.two_pow_add_eq_or_of_lt y.isLt]
  rw [BitVec.toNat_append, Nat.shiftLeft_eq, Nat.mul_comm op.toNat, ← Nat.two_pow_add_eq_or_of_lt x.isLt]
  omega

/-- The word of two bytes, big-endian (R57). -/
theorem wordOfBytes_toNat (b c : Byte) : (wordOfBytes b c).toNat = b.toNat * 256 + c.toNat := by
  rw [wordOfBytes, BitVec.toNat_append, Nat.shiftLeft_eq, Nat.mul_comm, ← Nat.two_pow_add_eq_or_of_lt c.isLt]

/-! The fields as numbers -/

theorem opField_toNat (w : Word) : (opField w).toNat = w.toNat / 4096 % 16 := by
  simp [opField, Nat.shiftRight_eq_div_pow]

theorem xField_toNat (w : Word) : (xField w).toNat = w.toNat / 256 % 16 := by
  simp [xField, Nat.shiftRight_eq_div_pow]

theorem yField_toNat (w : Word) : (yField w).toNat = w.toNat / 16 % 16 := by
  simp [yField, Nat.shiftRight_eq_div_pow]

theorem nField_toNat (w : Word) : (nField w).toNat = w.toNat % 16 := by simp [nField]

theorem nnField_toNat (w : Word) : (nnField w).toNat = w.toNat % 256 := by simp [nnField]

theorem nnnField_toNat (w : Word) : (nnnField w).toNat = w.toNat % 4096 := by simp [nnnField]

/-! Each field of each format -/

@[simp] theorem opField_formatNNN (op : BitVec 4) (nnn : Addr12) : opField (formatNNN op nnn) = op := by
  have := op.isLt
  have := nnn.isLt
  apply BitVec.eq_of_toNat_eq
  rw [opField_toNat, formatNNN_toNat]
  omega

@[simp] theorem nnnField_formatNNN (op : BitVec 4) (nnn : Addr12) : nnnField (formatNNN op nnn) = nnn := by
  have := op.isLt
  have := nnn.isLt
  apply BitVec.eq_of_toNat_eq
  rw [nnnField_toNat, formatNNN_toNat]
  omega

@[simp] theorem opField_formatXNN (op : BitVec 4) (x : RegNo) (nn : Byte) : opField (formatXNN op x nn) = op := by
  have := op.isLt
  have := x.isLt
  have := nn.isLt
  apply BitVec.eq_of_toNat_eq
  rw [opField_toNat, formatXNN_toNat]
  omega

@[simp] theorem xField_formatXNN (op : BitVec 4) (x : RegNo) (nn : Byte) : xField (formatXNN op x nn) = x := by
  have := op.isLt
  have := x.isLt
  have := nn.isLt
  apply BitVec.eq_of_toNat_eq
  rw [xField_toNat, formatXNN_toNat]
  omega

@[simp] theorem nnField_formatXNN (op : BitVec 4) (x : RegNo) (nn : Byte) : nnField (formatXNN op x nn) = nn := by
  have := op.isLt
  have := x.isLt
  have := nn.isLt
  apply BitVec.eq_of_toNat_eq
  rw [nnField_toNat, formatXNN_toNat]
  omega

@[simp] theorem opField_formatXYN (op : BitVec 4) (x y : RegNo) (n : BitVec 4) : opField (formatXYN op x y n) = op := by
  have := op.isLt
  have := x.isLt
  have := y.isLt
  have := n.isLt
  apply BitVec.eq_of_toNat_eq
  rw [opField_toNat, formatXYN_toNat]
  omega

@[simp] theorem xField_formatXYN (op : BitVec 4) (x y : RegNo) (n : BitVec 4) : xField (formatXYN op x y n) = x := by
  have := op.isLt
  have := x.isLt
  have := y.isLt
  have := n.isLt
  apply BitVec.eq_of_toNat_eq
  rw [xField_toNat, formatXYN_toNat]
  omega

@[simp] theorem yField_formatXYN (op : BitVec 4) (x y : RegNo) (n : BitVec 4) : yField (formatXYN op x y n) = y := by
  have := op.isLt
  have := x.isLt
  have := y.isLt
  have := n.isLt
  apply BitVec.eq_of_toNat_eq
  rw [yField_toNat, formatXYN_toNat]
  omega

@[simp] theorem nField_formatXYN (op : BitVec 4) (x y : RegNo) (n : BitVec 4) : nField (formatXYN op x y n) = n := by
  have := op.isLt
  have := x.isLt
  have := y.isLt
  have := n.isLt
  apply BitVec.eq_of_toNat_eq
  rw [nField_toNat, formatXYN_toNat]
  omega

/-! Each word from its fields -/

theorem formatNNN_fields (w : Word) : formatNNN (opField w) (nnnField w) = w := by
  have := w.isLt
  apply BitVec.eq_of_toNat_eq
  rw [formatNNN_toNat, opField_toNat, nnnField_toNat]
  omega

theorem formatXNN_fields (w : Word) : formatXNN (opField w) (xField w) (nnField w) = w := by
  have := w.isLt
  apply BitVec.eq_of_toNat_eq
  rw [formatXNN_toNat, opField_toNat, xField_toNat, nnField_toNat]
  omega

theorem formatXYN_fields (w : Word) : formatXYN (opField w) (xField w) (yField w) (nField w) = w := by
  have := w.isLt
  apply BitVec.eq_of_toNat_eq
  rw [formatXYN_toNat, opField_toNat, xField_toNat, yField_toNat, nField_toNat]
  omega

/-- The bytes of a word make the word again (R57). -/
theorem wordOfBytes_bytesOfWord (w : Word) : wordOfBytes (w.extractLsb' 8 8) (w.extractLsb' 0 8) = w := by
  have := w.isLt
  apply BitVec.eq_of_toNat_eq
  rw [wordOfBytes_toNat, BitVec.extractLsb'_toNat, BitVec.extractLsb'_toNat, Nat.shiftRight_eq_div_pow, Nat.shiftRight_zero]
  omega

end Sys2Proof
end

