-- ==== Sys2Proof/Laws/Memory.lean ====
section
/-! SUPPORT. Main memory: a read after a write, and that every memory operation keeps the canonical form. -/
namespace Sys2Proof.Machine

@[simp] theorem Memory.read_nil (a : Nat) : Memory.read [] a = Config.unwritten a := rfl

theorem Memory.read_cons (k : Nat) (c : Byte) (m : Memory) (a : Nat) :
    Memory.read ((k, c) :: m) a = if k = a then c else Memory.read m a := rfl

/-- A write leaves every other address alone, whatever the list. -/
theorem Memory.read_write_ne (m : Memory) {a c : Nat} (b : Byte) (h : c ≠ a) :
    Memory.read (Memory.write m a b) c = Memory.read m c := by
  induction m with
  | nil =>
    simp only [Memory.write]
    split
    · rfl
    · rw [Memory.read_cons, if_neg (Ne.symm h)]
  | cons e m ih =>
    obtain ⟨k, d⟩ := e
    simp only [Memory.write]
    split
    · simp only [Memory.read_cons, ih]
    · split
      · split <;> simp_all [Memory.read_cons, Ne.symm h]
      · split
        · rfl
        · rw [Memory.read_cons, if_neg (Ne.symm h)]

/-- An address that no entry lists reads as unwritten. -/
theorem Memory.read_unlisted (m : Memory) (a : Nat) (h : ∀ c ∈ m, c.1 ≠ a) : Memory.read m a = Config.unwritten a := by
  induction m with
  | nil => rfl
  | cons e m ih =>
    obtain ⟨k, d⟩ := e
    rw [Memory.read_cons, if_neg (h (k, d) (by simp)), ih fun c hc => h c (by simp [hc])]

/-- What the canonical form says of a list with a first entry. -/
theorem Memory.wf_cons (k : Nat) (c : Byte) (m : Memory) :
    Memory.wf ((k, c) :: m) = true ↔
      k < Config.memSize ∧ c ≠ Config.unwritten k ∧ (∀ e ∈ m, k < e.1) ∧ Memory.wf m = true := by
  simp only [Memory.wf, Bool.and_eq_true, decide_eq_true_eq, bne_iff_ne, List.all_eq_true, and_assoc]

/-- In canonical form, the byte written is the byte read. -/
theorem Memory.read_write_same (m : Memory) (a : Nat) (b : Byte) (h : Memory.wf m = true) :
    Memory.read (Memory.write m a b) a = b := by
  induction m with
  | nil =>
    simp only [Memory.write]
    split
    · simp_all
    · simp [Memory.read_cons]
  | cons e m ih =>
    obtain ⟨k, d⟩ := e
    obtain ⟨-, -, hlt, hm⟩ := (Memory.wf_cons k d m).1 h
    simp only [Memory.write]
    split
    · rw [Memory.read_cons, if_neg (by omega), ih hm]
    · split
      · split
        · rw [Memory.read_unlisted m a fun c hc => by have := hlt c hc; omega]
          simp_all
        · simp [Memory.read_cons]
      · split
        · rw [Memory.read_cons, if_neg ‹_›, Memory.read_unlisted m a fun c hc => by have := hlt c hc; omega]
          simp_all
        · simp [Memory.read_cons]

/-- A write lists no address but its own and the old ones. -/
theorem Memory.mem_write {m : Memory} {a : Nat} {b : Byte} {c : Host.Cell} (h : c ∈ Memory.write m a b) :
    c = (a, b) ∨ c ∈ m := by
  induction m with
  | nil =>
    simp only [Memory.write] at h
    split at h <;> simp_all
  | cons e m ih =>
    obtain ⟨k, d⟩ := e
    simp only [Memory.write] at h
    split at h
    · rcases List.mem_cons.1 h with rfl | h
      · simp
      · rcases ih h with h | h <;> simp [h]
    · split at h
      · split at h
        · exact .inr (List.mem_cons_of_mem _ h)
        · rcases List.mem_cons.1 h with rfl | h <;> simp_all
      · split at h
        · exact .inr h
        · rcases List.mem_cons.1 h with rfl | h <;> simp_all

/-- A write keeps the canonical form. -/
theorem Memory.write_wf (m : Memory) {a : Nat} (b : Byte) (h : Memory.wf m = true) (ha : a < Config.memSize) :
    Memory.wf (Memory.write m a b) = true := by
  induction m with
  | nil =>
    simp only [Memory.write]
    split
    · rfl
    · exact (Memory.wf_cons _ _ _).2 ⟨ha, ‹_›, by simp, rfl⟩
  | cons e m ih =>
    obtain ⟨k, d⟩ := e
    have hw := h
    obtain ⟨hk, hd, hlt, hm⟩ := (Memory.wf_cons k d m).1 h
    simp only [Memory.write]
    split
    · refine (Memory.wf_cons _ _ _).2 ⟨hk, hd, fun c hc => ?_, ih hm⟩
      rcases Memory.mem_write hc with rfl | hc
      · assumption
      · exact hlt c hc
    · split
      · subst_vars
        split
        · exact hm
        · exact (Memory.wf_cons _ _ _).2 ⟨hk, ‹_›, hlt, hm⟩
      · split
        · exact hw
        · refine (Memory.wf_cons _ _ _).2 ⟨ha, ‹_›, fun c hc => ?_, hw⟩
          rcases List.mem_cons.1 hc with rfl | hc
          · dsimp only; omega
          · have := hlt c hc; omega

/-- A write above the font table keeps the font intact. -/
theorem Memory.write_fontIntact (m : Memory) {a : Nat} (b : Byte) (h : Memory.fontIntact m = true)
    (ha : Config.fontSize ≤ a) : Memory.fontIntact (Memory.write m a b) = true := by
  simp only [Memory.fontIntact, List.all_eq_true, decide_eq_true_eq] at *
  intro c hc
  rcases Memory.mem_write hc with rfl | hc
  · exact ha
  · exact h c hc

/-- In a memory with the font intact, an address below 0x050 reads as the font byte (R38, R52). -/
theorem Memory.read_font (m : Memory) {a : Nat} (h : Memory.fontIntact m = true) (ha : a < Config.fontSize) :
    Memory.read m a = Config.unwritten a := by
  simp only [Memory.fontIntact, List.all_eq_true, decide_eq_true_eq] at h
  exact Memory.read_unlisted m a fun c hc => by have := h c hc; omega

/-- Writing bytes leaves every address outside them alone. -/
theorem Memory.read_writeBytes_outside (bs : List Byte) (m : Memory) {a c : Nat} (h : c < a ∨ a + bs.length ≤ c) :
    Memory.read (Memory.writeBytes m a bs) c = Memory.read m c := by
  induction bs generalizing m a with
  | nil => rfl
  | cons b bs ih =>
    simp only [List.length_cons] at h
    rw [Memory.writeBytes, ih (Memory.write m a b) (by omega), Memory.read_write_ne m b (by omega)]

/-- Writing bytes keeps the canonical form. -/
theorem Memory.writeBytes_wf (bs : List Byte) (m : Memory) {a : Nat} (h : Memory.wf m = true)
    (ha : a + bs.length ≤ Config.memSize) : Memory.wf (Memory.writeBytes m a bs) = true := by
  induction bs generalizing m a with
  | nil => exact h
  | cons b bs ih =>
    simp only [List.length_cons] at ha
    exact ih _ (Memory.write_wf m b h (by omega)) (by omega)

/-- Writing bytes above the font table keeps the font intact. -/
theorem Memory.writeBytes_fontIntact (bs : List Byte) (m : Memory) {a : Nat} (h : Memory.fontIntact m = true)
    (ha : Config.fontSize ≤ a) : Memory.fontIntact (Memory.writeBytes m a bs) = true := by
  induction bs generalizing m a with
  | nil => exact h
  | cons b bs ih => exact ih _ (Memory.write_fontIntact m b h ha) (by omega)

/-- In canonical form, each byte written is the byte read at its address. -/
theorem Memory.read_writeBytes_inside (bs : List Byte) (m : Memory) {a i : Nat} (h : Memory.wf m = true)
    (ha : a + bs.length ≤ Config.memSize) (hi : i < bs.length) :
    Memory.read (Memory.writeBytes m a bs) (a + i) = bs[i] := by
  induction bs generalizing m a i with
  | nil => simp at hi
  | cons b bs ih =>
    simp only [List.length_cons] at ha hi
    rw [Memory.writeBytes]
    cases i with
    | zero =>
      rw [Memory.read_writeBytes_outside bs _ (by omega)]
      exact Memory.read_write_same m a b h
    | succ i =>
      have := ih (Memory.write m a b) (a := a + 1) (i := i) (Memory.write_wf m b h (by omega)) (by omega) (by omega)
      rw [show a + (i + 1) = a + 1 + i by omega, this, List.getElem_cons_succ]

@[simp] theorem Memory.readBytes_length (m : Memory) (a n : Nat) : (Memory.readBytes m a n).length = n := by
  simp [Memory.readBytes]

@[simp] theorem Memory.readBytes_getElem (m : Memory) (a n i : Nat) (h : i < (Memory.readBytes m a n).length) :
    (Memory.readBytes m a n)[i] = Memory.read m (a + i) := by
  simp [Memory.readBytes]

/-- The reset memory is in canonical form with the font intact. -/
theorem reset_mem_wf : Memory.wf State.reset.mem = true ∧ Memory.fontIntact State.reset.mem = true := ⟨rfl, rfl⟩

end Sys2Proof.Machine
end

