-- ==== Sys2Proof/Laws/State.lean ====
section
/-! SUPPORT. For each update of the state, one lemma per field, so that no proof unfolds a record update; the registers and
pixels read through their accessors; and the operations that branch, field by field. -/
namespace Sys2Proof.Machine

/-! `setV` -/
@[simp] theorem State.setV_V (s : State) (x : RegNo) (b : Byte) : (s.setV x b).V = s.V.set x.toNat b x.isLt := rfl
@[simp] theorem State.setV_I (s : State) (x : RegNo) (b : Byte) : (s.setV x b).I = s.I := rfl
@[simp] theorem State.setV_pc (s : State) (x : RegNo) (b : Byte) : (s.setV x b).pc = s.pc := rfl
@[simp] theorem State.setV_stack (s : State) (x : RegNo) (b : Byte) : (s.setV x b).stack = s.stack := rfl
@[simp] theorem State.setV_sp (s : State) (x : RegNo) (b : Byte) : (s.setV x b).sp = s.sp := rfl
@[simp] theorem State.setV_display (s : State) (x : RegNo) (b : Byte) : (s.setV x b).display = s.display := rfl
@[simp] theorem State.setV_DT (s : State) (x : RegNo) (b : Byte) : (s.setV x b).DT = s.DT := rfl
@[simp] theorem State.setV_ST (s : State) (x : RegNo) (b : Byte) : (s.setV x b).ST = s.ST := rfl
@[simp] theorem State.setV_steps (s : State) (x : RegNo) (b : Byte) : (s.setV x b).steps = s.steps := rfl
@[simp] theorem State.setV_status (s : State) (x : RegNo) (b : Byte) : (s.setV x b).status = s.status := rfl
@[simp] theorem State.setV_mem (s : State) (x : RegNo) (b : Byte) : (s.setV x b).mem = s.mem := rfl
@[simp] theorem State.setV_cycles (s : State) (x : RegNo) (b : Byte) : (s.setV x b).cycles = s.cycles := rfl
@[simp] theorem State.setV_fbUpdate (s : State) (x : RegNo) (b : Byte) : (s.setV x b).fbUpdate = s.fbUpdate := rfl
@[simp] theorem State.setV_env (s : State) (x : RegNo) (b : Byte) : (s.setV x b).env = s.env := rfl

/-! `setI` -/
@[simp] theorem State.setI_V (s : State) (w : Word) : (s.setI w).V = s.V := rfl
@[simp] theorem State.setI_I (s : State) (w : Word) : (s.setI w).I = w := rfl
@[simp] theorem State.setI_pc (s : State) (w : Word) : (s.setI w).pc = s.pc := rfl
@[simp] theorem State.setI_stack (s : State) (w : Word) : (s.setI w).stack = s.stack := rfl
@[simp] theorem State.setI_sp (s : State) (w : Word) : (s.setI w).sp = s.sp := rfl
@[simp] theorem State.setI_display (s : State) (w : Word) : (s.setI w).display = s.display := rfl
@[simp] theorem State.setI_DT (s : State) (w : Word) : (s.setI w).DT = s.DT := rfl
@[simp] theorem State.setI_ST (s : State) (w : Word) : (s.setI w).ST = s.ST := rfl
@[simp] theorem State.setI_steps (s : State) (w : Word) : (s.setI w).steps = s.steps := rfl
@[simp] theorem State.setI_status (s : State) (w : Word) : (s.setI w).status = s.status := rfl
@[simp] theorem State.setI_mem (s : State) (w : Word) : (s.setI w).mem = s.mem := rfl
@[simp] theorem State.setI_cycles (s : State) (w : Word) : (s.setI w).cycles = s.cycles := rfl
@[simp] theorem State.setI_fbUpdate (s : State) (w : Word) : (s.setI w).fbUpdate = s.fbUpdate := rfl
@[simp] theorem State.setI_env (s : State) (w : Word) : (s.setI w).env = s.env := rfl

/-! `setPc` -/
@[simp] theorem State.setPc_V (s : State) (w : Word) : (s.setPc w).V = s.V := rfl
@[simp] theorem State.setPc_I (s : State) (w : Word) : (s.setPc w).I = s.I := rfl
@[simp] theorem State.setPc_pc (s : State) (w : Word) : (s.setPc w).pc = w := rfl
@[simp] theorem State.setPc_stack (s : State) (w : Word) : (s.setPc w).stack = s.stack := rfl
@[simp] theorem State.setPc_sp (s : State) (w : Word) : (s.setPc w).sp = s.sp := rfl
@[simp] theorem State.setPc_display (s : State) (w : Word) : (s.setPc w).display = s.display := rfl
@[simp] theorem State.setPc_DT (s : State) (w : Word) : (s.setPc w).DT = s.DT := rfl
@[simp] theorem State.setPc_ST (s : State) (w : Word) : (s.setPc w).ST = s.ST := rfl
@[simp] theorem State.setPc_steps (s : State) (w : Word) : (s.setPc w).steps = s.steps := rfl
@[simp] theorem State.setPc_status (s : State) (w : Word) : (s.setPc w).status = s.status := rfl
@[simp] theorem State.setPc_mem (s : State) (w : Word) : (s.setPc w).mem = s.mem := rfl
@[simp] theorem State.setPc_cycles (s : State) (w : Word) : (s.setPc w).cycles = s.cycles := rfl
@[simp] theorem State.setPc_fbUpdate (s : State) (w : Word) : (s.setPc w).fbUpdate = s.fbUpdate := rfl
@[simp] theorem State.setPc_env (s : State) (w : Word) : (s.setPc w).env = s.env := rfl

/-! `setDT` -/
@[simp] theorem State.setDT_V (s : State) (b : Byte) : (s.setDT b).V = s.V := rfl
@[simp] theorem State.setDT_I (s : State) (b : Byte) : (s.setDT b).I = s.I := rfl
@[simp] theorem State.setDT_pc (s : State) (b : Byte) : (s.setDT b).pc = s.pc := rfl
@[simp] theorem State.setDT_stack (s : State) (b : Byte) : (s.setDT b).stack = s.stack := rfl
@[simp] theorem State.setDT_sp (s : State) (b : Byte) : (s.setDT b).sp = s.sp := rfl
@[simp] theorem State.setDT_display (s : State) (b : Byte) : (s.setDT b).display = s.display := rfl
@[simp] theorem State.setDT_DT (s : State) (b : Byte) : (s.setDT b).DT = b := rfl
@[simp] theorem State.setDT_ST (s : State) (b : Byte) : (s.setDT b).ST = s.ST := rfl
@[simp] theorem State.setDT_steps (s : State) (b : Byte) : (s.setDT b).steps = s.steps := rfl
@[simp] theorem State.setDT_status (s : State) (b : Byte) : (s.setDT b).status = s.status := rfl
@[simp] theorem State.setDT_mem (s : State) (b : Byte) : (s.setDT b).mem = s.mem := rfl
@[simp] theorem State.setDT_cycles (s : State) (b : Byte) : (s.setDT b).cycles = s.cycles := rfl
@[simp] theorem State.setDT_fbUpdate (s : State) (b : Byte) : (s.setDT b).fbUpdate = s.fbUpdate := rfl
@[simp] theorem State.setDT_env (s : State) (b : Byte) : (s.setDT b).env = s.env := rfl

/-! `setST` -/
@[simp] theorem State.setST_V (s : State) (b : Byte) : (s.setST b).V = s.V := rfl
@[simp] theorem State.setST_I (s : State) (b : Byte) : (s.setST b).I = s.I := rfl
@[simp] theorem State.setST_pc (s : State) (b : Byte) : (s.setST b).pc = s.pc := rfl
@[simp] theorem State.setST_stack (s : State) (b : Byte) : (s.setST b).stack = s.stack := rfl
@[simp] theorem State.setST_sp (s : State) (b : Byte) : (s.setST b).sp = s.sp := rfl
@[simp] theorem State.setST_display (s : State) (b : Byte) : (s.setST b).display = s.display := rfl
@[simp] theorem State.setST_DT (s : State) (b : Byte) : (s.setST b).DT = s.DT := rfl
@[simp] theorem State.setST_ST (s : State) (b : Byte) : (s.setST b).ST = b := rfl
@[simp] theorem State.setST_steps (s : State) (b : Byte) : (s.setST b).steps = s.steps := rfl
@[simp] theorem State.setST_status (s : State) (b : Byte) : (s.setST b).status = s.status := rfl
@[simp] theorem State.setST_mem (s : State) (b : Byte) : (s.setST b).mem = s.mem := rfl
@[simp] theorem State.setST_cycles (s : State) (b : Byte) : (s.setST b).cycles = s.cycles := rfl
@[simp] theorem State.setST_fbUpdate (s : State) (b : Byte) : (s.setST b).fbUpdate = s.fbUpdate := rfl
@[simp] theorem State.setST_env (s : State) (b : Byte) : (s.setST b).env = s.env := rfl

/-! `setDisplay` -/
@[simp] theorem State.setDisplay_V (s : State) (d : Bitmap) : (s.setDisplay d).V = s.V := rfl
@[simp] theorem State.setDisplay_I (s : State) (d : Bitmap) : (s.setDisplay d).I = s.I := rfl
@[simp] theorem State.setDisplay_pc (s : State) (d : Bitmap) : (s.setDisplay d).pc = s.pc := rfl
@[simp] theorem State.setDisplay_stack (s : State) (d : Bitmap) : (s.setDisplay d).stack = s.stack := rfl
@[simp] theorem State.setDisplay_sp (s : State) (d : Bitmap) : (s.setDisplay d).sp = s.sp := rfl
@[simp] theorem State.setDisplay_display (s : State) (d : Bitmap) : (s.setDisplay d).display = d := rfl
@[simp] theorem State.setDisplay_DT (s : State) (d : Bitmap) : (s.setDisplay d).DT = s.DT := rfl
@[simp] theorem State.setDisplay_ST (s : State) (d : Bitmap) : (s.setDisplay d).ST = s.ST := rfl
@[simp] theorem State.setDisplay_steps (s : State) (d : Bitmap) : (s.setDisplay d).steps = s.steps := rfl
@[simp] theorem State.setDisplay_status (s : State) (d : Bitmap) : (s.setDisplay d).status = s.status := rfl
@[simp] theorem State.setDisplay_mem (s : State) (d : Bitmap) : (s.setDisplay d).mem = s.mem := rfl
@[simp] theorem State.setDisplay_cycles (s : State) (d : Bitmap) : (s.setDisplay d).cycles = s.cycles := rfl
@[simp] theorem State.setDisplay_fbUpdate (s : State) (d : Bitmap) : (s.setDisplay d).fbUpdate = s.fbUpdate := rfl
@[simp] theorem State.setDisplay_env (s : State) (d : Bitmap) : (s.setDisplay d).env = s.env := rfl

/-! `setEnv` -/
@[simp] theorem State.setEnv_V (s : State) (e : Env) : (s.setEnv e).V = s.V := rfl
@[simp] theorem State.setEnv_I (s : State) (e : Env) : (s.setEnv e).I = s.I := rfl
@[simp] theorem State.setEnv_pc (s : State) (e : Env) : (s.setEnv e).pc = s.pc := rfl
@[simp] theorem State.setEnv_stack (s : State) (e : Env) : (s.setEnv e).stack = s.stack := rfl
@[simp] theorem State.setEnv_sp (s : State) (e : Env) : (s.setEnv e).sp = s.sp := rfl
@[simp] theorem State.setEnv_display (s : State) (e : Env) : (s.setEnv e).display = s.display := rfl
@[simp] theorem State.setEnv_DT (s : State) (e : Env) : (s.setEnv e).DT = s.DT := rfl
@[simp] theorem State.setEnv_ST (s : State) (e : Env) : (s.setEnv e).ST = s.ST := rfl
@[simp] theorem State.setEnv_steps (s : State) (e : Env) : (s.setEnv e).steps = s.steps := rfl
@[simp] theorem State.setEnv_status (s : State) (e : Env) : (s.setEnv e).status = s.status := rfl
@[simp] theorem State.setEnv_mem (s : State) (e : Env) : (s.setEnv e).mem = s.mem := rfl
@[simp] theorem State.setEnv_cycles (s : State) (e : Env) : (s.setEnv e).cycles = s.cycles := rfl
@[simp] theorem State.setEnv_fbUpdate (s : State) (e : Env) : (s.setEnv e).fbUpdate = s.fbUpdate := rfl
@[simp] theorem State.setEnv_env (s : State) (e : Env) : (s.setEnv e).env = e := rfl

/-! `storeBytes` -/
@[simp] theorem State.storeBytes_V (s : State) (a : Nat) (bs : List Byte) : (s.storeBytes a bs).V = s.V := rfl
@[simp] theorem State.storeBytes_I (s : State) (a : Nat) (bs : List Byte) : (s.storeBytes a bs).I = s.I := rfl
@[simp] theorem State.storeBytes_pc (s : State) (a : Nat) (bs : List Byte) : (s.storeBytes a bs).pc = s.pc := rfl
@[simp] theorem State.storeBytes_stack (s : State) (a : Nat) (bs : List Byte) : (s.storeBytes a bs).stack = s.stack := rfl
@[simp] theorem State.storeBytes_sp (s : State) (a : Nat) (bs : List Byte) : (s.storeBytes a bs).sp = s.sp := rfl
@[simp] theorem State.storeBytes_display (s : State) (a : Nat) (bs : List Byte) : (s.storeBytes a bs).display = s.display := rfl
@[simp] theorem State.storeBytes_DT (s : State) (a : Nat) (bs : List Byte) : (s.storeBytes a bs).DT = s.DT := rfl
@[simp] theorem State.storeBytes_ST (s : State) (a : Nat) (bs : List Byte) : (s.storeBytes a bs).ST = s.ST := rfl
@[simp] theorem State.storeBytes_steps (s : State) (a : Nat) (bs : List Byte) : (s.storeBytes a bs).steps = s.steps := rfl
@[simp] theorem State.storeBytes_status (s : State) (a : Nat) (bs : List Byte) : (s.storeBytes a bs).status = s.status := rfl
@[simp] theorem State.storeBytes_mem (s : State) (a : Nat) (bs : List Byte) : (s.storeBytes a bs).mem = Memory.writeBytes s.mem a bs := rfl
@[simp] theorem State.storeBytes_cycles (s : State) (a : Nat) (bs : List Byte) : (s.storeBytes a bs).cycles = s.cycles := rfl
@[simp] theorem State.storeBytes_fbUpdate (s : State) (a : Nat) (bs : List Byte) : (s.storeBytes a bs).fbUpdate = s.fbUpdate := rfl
@[simp] theorem State.storeBytes_env (s : State) (a : Nat) (bs : List Byte) : (s.storeBytes a bs).env = s.env := rfl

/-! `loadRegs` -/
@[simp] theorem State.loadRegs_I (s : State) (x : RegNo) : (s.loadRegs x).I = s.I := rfl
@[simp] theorem State.loadRegs_pc (s : State) (x : RegNo) : (s.loadRegs x).pc = s.pc := rfl
@[simp] theorem State.loadRegs_stack (s : State) (x : RegNo) : (s.loadRegs x).stack = s.stack := rfl
@[simp] theorem State.loadRegs_sp (s : State) (x : RegNo) : (s.loadRegs x).sp = s.sp := rfl
@[simp] theorem State.loadRegs_display (s : State) (x : RegNo) : (s.loadRegs x).display = s.display := rfl
@[simp] theorem State.loadRegs_DT (s : State) (x : RegNo) : (s.loadRegs x).DT = s.DT := rfl
@[simp] theorem State.loadRegs_ST (s : State) (x : RegNo) : (s.loadRegs x).ST = s.ST := rfl
@[simp] theorem State.loadRegs_steps (s : State) (x : RegNo) : (s.loadRegs x).steps = s.steps := rfl
@[simp] theorem State.loadRegs_status (s : State) (x : RegNo) : (s.loadRegs x).status = s.status := rfl
@[simp] theorem State.loadRegs_mem (s : State) (x : RegNo) : (s.loadRegs x).mem = s.mem := rfl
@[simp] theorem State.loadRegs_cycles (s : State) (x : RegNo) : (s.loadRegs x).cycles = s.cycles := rfl
@[simp] theorem State.loadRegs_fbUpdate (s : State) (x : RegNo) : (s.loadRegs x).fbUpdate = s.fbUpdate := rfl
@[simp] theorem State.loadRegs_env (s : State) (x : RegNo) : (s.loadRegs x).env = s.env := rfl

/-! `takeFault` -/
@[simp] theorem State.takeFault_V (s : State) (f : FaultRecord) : (s.takeFault f).V = s.V := rfl
@[simp] theorem State.takeFault_I (s : State) (f : FaultRecord) : (s.takeFault f).I = s.I := rfl
@[simp] theorem State.takeFault_pc (s : State) (f : FaultRecord) : (s.takeFault f).pc = s.pc := rfl
@[simp] theorem State.takeFault_stack (s : State) (f : FaultRecord) : (s.takeFault f).stack = s.stack := rfl
@[simp] theorem State.takeFault_sp (s : State) (f : FaultRecord) : (s.takeFault f).sp = s.sp := rfl
@[simp] theorem State.takeFault_display (s : State) (f : FaultRecord) : (s.takeFault f).display = s.display := rfl
@[simp] theorem State.takeFault_DT (s : State) (f : FaultRecord) : (s.takeFault f).DT = s.DT := rfl
@[simp] theorem State.takeFault_ST (s : State) (f : FaultRecord) : (s.takeFault f).ST = s.ST := rfl
@[simp] theorem State.takeFault_steps (s : State) (f : FaultRecord) : (s.takeFault f).steps = s.steps := rfl
@[simp] theorem State.takeFault_status (s : State) (f : FaultRecord) : (s.takeFault f).status = .faulted f := rfl
@[simp] theorem State.takeFault_mem (s : State) (f : FaultRecord) : (s.takeFault f).mem = s.mem := rfl
@[simp] theorem State.takeFault_cycles (s : State) (f : FaultRecord) : (s.takeFault f).cycles = .nothing := rfl
@[simp] theorem State.takeFault_fbUpdate (s : State) (f : FaultRecord) : (s.takeFault f).fbUpdate = false := rfl
@[simp] theorem State.takeFault_env (s : State) (f : FaultRecord) : (s.takeFault f).env = s.env := rfl

/-! `completed` -/
@[simp] theorem State.completed_V (s : State) : s.completed.V = s.V := rfl
@[simp] theorem State.completed_I (s : State) : s.completed.I = s.I := rfl
@[simp] theorem State.completed_pc (s : State) : s.completed.pc = s.pc := rfl
@[simp] theorem State.completed_stack (s : State) : s.completed.stack = s.stack := rfl
@[simp] theorem State.completed_sp (s : State) : s.completed.sp = s.sp := rfl
@[simp] theorem State.completed_display (s : State) : s.completed.display = s.display := rfl
@[simp] theorem State.completed_DT (s : State) : s.completed.DT = s.DT := rfl
@[simp] theorem State.completed_ST (s : State) : s.completed.ST = s.ST := rfl
@[simp] theorem State.completed_steps (s : State) : s.completed.steps = s.steps := rfl
@[simp] theorem State.completed_status (s : State) : s.completed.status = s.status := rfl
@[simp] theorem State.completed_mem (s : State) : s.completed.mem = s.mem := rfl
@[simp] theorem State.completed_cycles (s : State) : s.completed.cycles = .one := rfl
@[simp] theorem State.completed_fbUpdate (s : State) : s.completed.fbUpdate = false := rfl
@[simp] theorem State.completed_env (s : State) : s.completed.env = s.env := rfl

/-! `completedDrawing` -/
@[simp] theorem State.completedDrawing_V (s : State) : s.completedDrawing.V = s.V := rfl
@[simp] theorem State.completedDrawing_I (s : State) : s.completedDrawing.I = s.I := rfl
@[simp] theorem State.completedDrawing_pc (s : State) : s.completedDrawing.pc = s.pc := rfl
@[simp] theorem State.completedDrawing_stack (s : State) : s.completedDrawing.stack = s.stack := rfl
@[simp] theorem State.completedDrawing_sp (s : State) : s.completedDrawing.sp = s.sp := rfl
@[simp] theorem State.completedDrawing_display (s : State) : s.completedDrawing.display = s.display := rfl
@[simp] theorem State.completedDrawing_DT (s : State) : s.completedDrawing.DT = s.DT := rfl
@[simp] theorem State.completedDrawing_ST (s : State) : s.completedDrawing.ST = s.ST := rfl
@[simp] theorem State.completedDrawing_steps (s : State) : s.completedDrawing.steps = s.steps := rfl
@[simp] theorem State.completedDrawing_status (s : State) : s.completedDrawing.status = s.status := rfl
@[simp] theorem State.completedDrawing_mem (s : State) : s.completedDrawing.mem = s.mem := rfl
@[simp] theorem State.completedDrawing_cycles (s : State) : s.completedDrawing.cycles = .one := rfl
@[simp] theorem State.completedDrawing_fbUpdate (s : State) : s.completedDrawing.fbUpdate = true := rfl
@[simp] theorem State.completedDrawing_env (s : State) : s.completedDrawing.env = s.env := rfl

/-! `completedBlocking` -/
@[simp] theorem State.completedBlocking_V (s : State) : s.completedBlocking.V = s.V := rfl
@[simp] theorem State.completedBlocking_I (s : State) : s.completedBlocking.I = s.I := rfl
@[simp] theorem State.completedBlocking_pc (s : State) : s.completedBlocking.pc = s.pc := rfl
@[simp] theorem State.completedBlocking_stack (s : State) : s.completedBlocking.stack = s.stack := rfl
@[simp] theorem State.completedBlocking_sp (s : State) : s.completedBlocking.sp = s.sp := rfl
@[simp] theorem State.completedBlocking_display (s : State) : s.completedBlocking.display = s.display := rfl
@[simp] theorem State.completedBlocking_DT (s : State) : s.completedBlocking.DT = s.DT := rfl
@[simp] theorem State.completedBlocking_ST (s : State) : s.completedBlocking.ST = s.ST := rfl
@[simp] theorem State.completedBlocking_steps (s : State) : s.completedBlocking.steps = s.steps := rfl
@[simp] theorem State.completedBlocking_status (s : State) : s.completedBlocking.status = s.status := rfl
@[simp] theorem State.completedBlocking_mem (s : State) : s.completedBlocking.mem = s.mem := rfl
@[simp] theorem State.completedBlocking_cycles (s : State) : s.completedBlocking.cycles = .blocking := rfl
@[simp] theorem State.completedBlocking_fbUpdate (s : State) : s.completedBlocking.fbUpdate = false := rfl
@[simp] theorem State.completedBlocking_env (s : State) : s.completedBlocking.env = s.env := rfl

/-! `dropTop` -/
@[simp] theorem State.dropTop_V (s : State) : s.dropTop.V = s.V := rfl
@[simp] theorem State.dropTop_I (s : State) : s.dropTop.I = s.I := rfl
@[simp] theorem State.dropTop_pc (s : State) : s.dropTop.pc = s.pc := rfl
@[simp] theorem State.dropTop_stack (s : State) : s.dropTop.stack = s.stack := rfl
@[simp] theorem State.dropTop_display (s : State) : s.dropTop.display = s.display := rfl
@[simp] theorem State.dropTop_DT (s : State) : s.dropTop.DT = s.DT := rfl
@[simp] theorem State.dropTop_ST (s : State) : s.dropTop.ST = s.ST := rfl
@[simp] theorem State.dropTop_steps (s : State) : s.dropTop.steps = s.steps := rfl
@[simp] theorem State.dropTop_status (s : State) : s.dropTop.status = s.status := rfl
@[simp] theorem State.dropTop_mem (s : State) : s.dropTop.mem = s.mem := rfl
@[simp] theorem State.dropTop_cycles (s : State) : s.dropTop.cycles = s.cycles := rfl
@[simp] theorem State.dropTop_fbUpdate (s : State) : s.dropTop.fbUpdate = s.fbUpdate := rfl
@[simp] theorem State.dropTop_env (s : State) : s.dropTop.env = s.env := rfl

/-! `advancePc` -/
@[simp] theorem State.advancePc_V (s : State) : s.advancePc.V = s.V := rfl
@[simp] theorem State.advancePc_I (s : State) : s.advancePc.I = s.I := rfl
@[simp] theorem State.advancePc_pc (s : State) : s.advancePc.pc = s.pc + 2#16 := rfl
@[simp] theorem State.advancePc_stack (s : State) : s.advancePc.stack = s.stack := rfl
@[simp] theorem State.advancePc_sp (s : State) : s.advancePc.sp = s.sp := rfl
@[simp] theorem State.advancePc_display (s : State) : s.advancePc.display = s.display := rfl
@[simp] theorem State.advancePc_DT (s : State) : s.advancePc.DT = s.DT := rfl
@[simp] theorem State.advancePc_ST (s : State) : s.advancePc.ST = s.ST := rfl
@[simp] theorem State.advancePc_steps (s : State) : s.advancePc.steps = s.steps := rfl
@[simp] theorem State.advancePc_status (s : State) : s.advancePc.status = s.status := rfl
@[simp] theorem State.advancePc_mem (s : State) : s.advancePc.mem = s.mem := rfl
@[simp] theorem State.advancePc_cycles (s : State) : s.advancePc.cycles = s.cycles := rfl
@[simp] theorem State.advancePc_fbUpdate (s : State) : s.advancePc.fbUpdate = s.fbUpdate := rfl
@[simp] theorem State.advancePc_env (s : State) : s.advancePc.env = s.env := rfl

/-! `waitForKey` -/
@[simp] theorem State.waitForKey_V (s : State) : s.waitForKey.V = s.V := rfl
@[simp] theorem State.waitForKey_I (s : State) : s.waitForKey.I = s.I := rfl
@[simp] theorem State.waitForKey_pc (s : State) : s.waitForKey.pc = s.pc - 2#16 := rfl
@[simp] theorem State.waitForKey_stack (s : State) : s.waitForKey.stack = s.stack := rfl
@[simp] theorem State.waitForKey_sp (s : State) : s.waitForKey.sp = s.sp := rfl
@[simp] theorem State.waitForKey_display (s : State) : s.waitForKey.display = s.display := rfl
@[simp] theorem State.waitForKey_DT (s : State) : s.waitForKey.DT = s.DT := rfl
@[simp] theorem State.waitForKey_ST (s : State) : s.waitForKey.ST = s.ST := rfl
@[simp] theorem State.waitForKey_steps (s : State) : s.waitForKey.steps = s.steps := rfl
@[simp] theorem State.waitForKey_status (s : State) : s.waitForKey.status = s.status := rfl
@[simp] theorem State.waitForKey_mem (s : State) : s.waitForKey.mem = s.mem := rfl
@[simp] theorem State.waitForKey_cycles (s : State) : s.waitForKey.cycles = .nothing := rfl
@[simp] theorem State.waitForKey_fbUpdate (s : State) : s.waitForKey.fbUpdate = false := rfl
@[simp] theorem State.waitForKey_env (s : State) : s.waitForKey.env = s.env.afterNextKey := rfl

/-! Registers through their accessor -/

@[simp] theorem State.v_setV (s : State) (x y : RegNo) (b : Byte) : (s.setV x b).v y = if y = x then b else s.v y := by
  simp only [State.v, State.setV, Vector.getElem_set]
  by_cases h : y = x
  · simp [h]
  · rw [if_neg (fun e => h (BitVec.eq_of_toNat_eq e.symm)), if_neg h]

@[simp] theorem State.v_loadRegs (s : State) (x y : RegNo) :
    (s.loadRegs x).v y = if y.toNat ≤ x.toNat then Memory.read s.mem (s.I.toNat + y.toNat) else s.v y := by
  simp [State.v, State.loadRegs]

@[simp] theorem State.v_setResultAndFlag (s : State) (x y : RegNo) (r f : Byte) :
    (s.setResultAndFlag x r f).v y = if y = 0xF#4 then f else if y = x then r else s.v y := by
  simp [State.setResultAndFlag]

@[simp] theorem State.v_setI (s : State) (w : Word) (r : RegNo) : (s.setI w).v r = s.v r := rfl
@[simp] theorem State.v_setPc (s : State) (w : Word) (r : RegNo) : (s.setPc w).v r = s.v r := rfl
@[simp] theorem State.v_setDT (s : State) (b : Byte) (r : RegNo) : (s.setDT b).v r = s.v r := rfl
@[simp] theorem State.v_setST (s : State) (b : Byte) (r : RegNo) : (s.setST b).v r = s.v r := rfl
@[simp] theorem State.v_setDisplay (s : State) (d : Bitmap) (r : RegNo) : (s.setDisplay d).v r = s.v r := rfl
@[simp] theorem State.v_setEnv (s : State) (e : Env) (r : RegNo) : (s.setEnv e).v r = s.v r := rfl
@[simp] theorem State.v_storeBytes (s : State) (a : Nat) (bs : List Byte) (r : RegNo) : (s.storeBytes a bs).v r = s.v r := rfl
@[simp] theorem State.v_takeFault (s : State) (f : FaultRecord) (r : RegNo) : (s.takeFault f).v r = s.v r := rfl
@[simp] theorem State.v_completed (s : State) (r : RegNo) : s.completed.v r = s.v r := rfl
@[simp] theorem State.v_completedDrawing (s : State) (r : RegNo) : s.completedDrawing.v r = s.v r := rfl
@[simp] theorem State.v_completedBlocking (s : State) (r : RegNo) : s.completedBlocking.v r = s.v r := rfl
@[simp] theorem State.v_dropTop (s : State) (r : RegNo) : s.dropTop.v r = s.v r := rfl
@[simp] theorem State.v_advancePc (s : State) (r : RegNo) : s.advancePc.v r = s.v r := rfl
@[simp] theorem State.v_waitForKey (s : State) (r : RegNo) : s.waitForKey.v r = s.v r := rfl

/-! Pixels through their accessor -/

@[simp] theorem State.pixel_setV (s : State) (x : RegNo) (b : Byte) (px : Fin 64) (py : Fin 32) : (s.setV x b).pixel px py = s.pixel px py := rfl
@[simp] theorem State.pixel_setI (s : State) (w : Word) (px : Fin 64) (py : Fin 32) : (s.setI w).pixel px py = s.pixel px py := rfl
@[simp] theorem State.pixel_setPc (s : State) (w : Word) (px : Fin 64) (py : Fin 32) : (s.setPc w).pixel px py = s.pixel px py := rfl
@[simp] theorem State.pixel_setDT (s : State) (b : Byte) (px : Fin 64) (py : Fin 32) : (s.setDT b).pixel px py = s.pixel px py := rfl
@[simp] theorem State.pixel_setST (s : State) (b : Byte) (px : Fin 64) (py : Fin 32) : (s.setST b).pixel px py = s.pixel px py := rfl
@[simp] theorem State.pixel_setEnv (s : State) (e : Env) (px : Fin 64) (py : Fin 32) : (s.setEnv e).pixel px py = s.pixel px py := rfl
@[simp] theorem State.pixel_storeBytes (s : State) (a : Nat) (bs : List Byte) (px : Fin 64) (py : Fin 32) : (s.storeBytes a bs).pixel px py = s.pixel px py := rfl
@[simp] theorem State.pixel_loadRegs (s : State) (x : RegNo) (px : Fin 64) (py : Fin 32) : (s.loadRegs x).pixel px py = s.pixel px py := rfl
@[simp] theorem State.pixel_takeFault (s : State) (f : FaultRecord) (px : Fin 64) (py : Fin 32) : (s.takeFault f).pixel px py = s.pixel px py := rfl
@[simp] theorem State.pixel_completed (s : State) (px : Fin 64) (py : Fin 32) : s.completed.pixel px py = s.pixel px py := rfl
@[simp] theorem State.pixel_completedDrawing (s : State) (px : Fin 64) (py : Fin 32) : s.completedDrawing.pixel px py = s.pixel px py := rfl
@[simp] theorem State.pixel_completedBlocking (s : State) (px : Fin 64) (py : Fin 32) : s.completedBlocking.pixel px py = s.pixel px py := rfl
@[simp] theorem State.pixel_dropTop (s : State) (px : Fin 64) (py : Fin 32) : s.dropTop.pixel px py = s.pixel px py := rfl
@[simp] theorem State.pixel_advancePc (s : State) (px : Fin 64) (py : Fin 32) : s.advancePc.pixel px py = s.pixel px py := rfl
@[simp] theorem State.pixel_waitForKey (s : State) (px : Fin 64) (py : Fin 32) : s.waitForKey.pixel px py = s.pixel px py := rfl

/-! Operations that branch: the fields they never change -/

@[simp] theorem State.setResultAndFlag_I (s : State) (x : RegNo) (r f : Byte) : (s.setResultAndFlag x r f).I = s.I := rfl
@[simp] theorem State.setResultAndFlag_pc (s : State) (x : RegNo) (r f : Byte) : (s.setResultAndFlag x r f).pc = s.pc := rfl
@[simp] theorem State.setResultAndFlag_stack (s : State) (x : RegNo) (r f : Byte) : (s.setResultAndFlag x r f).stack = s.stack := rfl
@[simp] theorem State.setResultAndFlag_sp (s : State) (x : RegNo) (r f : Byte) : (s.setResultAndFlag x r f).sp = s.sp := rfl
@[simp] theorem State.setResultAndFlag_display (s : State) (x : RegNo) (r f : Byte) : (s.setResultAndFlag x r f).display = s.display := rfl
@[simp] theorem State.setResultAndFlag_DT (s : State) (x : RegNo) (r f : Byte) : (s.setResultAndFlag x r f).DT = s.DT := rfl
@[simp] theorem State.setResultAndFlag_ST (s : State) (x : RegNo) (r f : Byte) : (s.setResultAndFlag x r f).ST = s.ST := rfl
@[simp] theorem State.setResultAndFlag_steps (s : State) (x : RegNo) (r f : Byte) : (s.setResultAndFlag x r f).steps = s.steps := rfl
@[simp] theorem State.setResultAndFlag_status (s : State) (x : RegNo) (r f : Byte) : (s.setResultAndFlag x r f).status = s.status := rfl
@[simp] theorem State.setResultAndFlag_mem (s : State) (x : RegNo) (r f : Byte) : (s.setResultAndFlag x r f).mem = s.mem := rfl
@[simp] theorem State.setResultAndFlag_cycles (s : State) (x : RegNo) (r f : Byte) : (s.setResultAndFlag x r f).cycles = s.cycles := rfl
@[simp] theorem State.setResultAndFlag_fbUpdate (s : State) (x : RegNo) (r f : Byte) : (s.setResultAndFlag x r f).fbUpdate = s.fbUpdate := rfl
@[simp] theorem State.setResultAndFlag_env (s : State) (x : RegNo) (r f : Byte) : (s.setResultAndFlag x r f).env = s.env := rfl
@[simp] theorem State.pixel_setResultAndFlag (s : State) (x : RegNo) (r f : Byte) (px : Fin 64) (py : Fin 32) : (s.setResultAndFlag x r f).pixel px py = s.pixel px py := by
  simp [State.pixel]

@[simp] theorem State.pushStack_V (s : State) (a : Word) : (s.pushStack a).V = s.V := by
  unfold State.pushStack; split <;> rfl
@[simp] theorem State.pushStack_I (s : State) (a : Word) : (s.pushStack a).I = s.I := by
  unfold State.pushStack; split <;> rfl
@[simp] theorem State.pushStack_pc (s : State) (a : Word) : (s.pushStack a).pc = s.pc := by
  unfold State.pushStack; split <;> rfl
@[simp] theorem State.pushStack_display (s : State) (a : Word) : (s.pushStack a).display = s.display := by
  unfold State.pushStack; split <;> rfl
@[simp] theorem State.pushStack_DT (s : State) (a : Word) : (s.pushStack a).DT = s.DT := by
  unfold State.pushStack; split <;> rfl
@[simp] theorem State.pushStack_ST (s : State) (a : Word) : (s.pushStack a).ST = s.ST := by
  unfold State.pushStack; split <;> rfl
@[simp] theorem State.pushStack_steps (s : State) (a : Word) : (s.pushStack a).steps = s.steps := by
  unfold State.pushStack; split <;> rfl
@[simp] theorem State.pushStack_status (s : State) (a : Word) : (s.pushStack a).status = s.status := by
  unfold State.pushStack; split <;> rfl
@[simp] theorem State.pushStack_mem (s : State) (a : Word) : (s.pushStack a).mem = s.mem := by
  unfold State.pushStack; split <;> rfl
@[simp] theorem State.pushStack_cycles (s : State) (a : Word) : (s.pushStack a).cycles = s.cycles := by
  unfold State.pushStack; split <;> rfl
@[simp] theorem State.pushStack_fbUpdate (s : State) (a : Word) : (s.pushStack a).fbUpdate = s.fbUpdate := by
  unfold State.pushStack; split <;> rfl
@[simp] theorem State.pushStack_env (s : State) (a : Word) : (s.pushStack a).env = s.env := by
  unfold State.pushStack; split <;> rfl
@[simp] theorem State.v_pushStack (s : State) (a : Word) (r : RegNo) : (s.pushStack a).v r = s.v r := by
  simp [State.v]
@[simp] theorem State.pixel_pushStack (s : State) (a : Word) (px : Fin 64) (py : Fin 32) : (s.pushStack a).pixel px py = s.pixel px py := by
  simp [State.pixel]

@[simp] theorem State.skipIf_V (s : State) (c : Bool) : (s.skipIf c).V = s.V := by
  unfold State.skipIf; split <;> rfl
@[simp] theorem State.skipIf_I (s : State) (c : Bool) : (s.skipIf c).I = s.I := by
  unfold State.skipIf; split <;> rfl
@[simp] theorem State.skipIf_stack (s : State) (c : Bool) : (s.skipIf c).stack = s.stack := by
  unfold State.skipIf; split <;> rfl
@[simp] theorem State.skipIf_sp (s : State) (c : Bool) : (s.skipIf c).sp = s.sp := by
  unfold State.skipIf; split <;> rfl
@[simp] theorem State.skipIf_display (s : State) (c : Bool) : (s.skipIf c).display = s.display := by
  unfold State.skipIf; split <;> rfl
@[simp] theorem State.skipIf_DT (s : State) (c : Bool) : (s.skipIf c).DT = s.DT := by
  unfold State.skipIf; split <;> rfl
@[simp] theorem State.skipIf_ST (s : State) (c : Bool) : (s.skipIf c).ST = s.ST := by
  unfold State.skipIf; split <;> rfl
@[simp] theorem State.skipIf_steps (s : State) (c : Bool) : (s.skipIf c).steps = s.steps := by
  unfold State.skipIf; split <;> rfl
@[simp] theorem State.skipIf_status (s : State) (c : Bool) : (s.skipIf c).status = s.status := by
  unfold State.skipIf; split <;> rfl
@[simp] theorem State.skipIf_mem (s : State) (c : Bool) : (s.skipIf c).mem = s.mem := by
  unfold State.skipIf; split <;> rfl
@[simp] theorem State.skipIf_cycles (s : State) (c : Bool) : (s.skipIf c).cycles = s.cycles := by
  unfold State.skipIf; split <;> rfl
@[simp] theorem State.skipIf_fbUpdate (s : State) (c : Bool) : (s.skipIf c).fbUpdate = s.fbUpdate := by
  unfold State.skipIf; split <;> rfl
@[simp] theorem State.skipIf_env (s : State) (c : Bool) : (s.skipIf c).env = s.env := by
  unfold State.skipIf; split <;> rfl
@[simp] theorem State.v_skipIf (s : State) (c : Bool) (r : RegNo) : (s.skipIf c).v r = s.v r := by
  simp [State.v]
@[simp] theorem State.pixel_skipIf (s : State) (c : Bool) (px : Fin 64) (py : Fin 32) : (s.skipIf c).pixel px py = s.pixel px py := by
  simp [State.pixel]

@[simp] theorem State.countStep_V (s : State) : s.countStep.V = s.V := by
  unfold State.countStep; split <;> rfl
@[simp] theorem State.countStep_I (s : State) : s.countStep.I = s.I := by
  unfold State.countStep; split <;> rfl
@[simp] theorem State.countStep_pc (s : State) : s.countStep.pc = s.pc := by
  unfold State.countStep; split <;> rfl
@[simp] theorem State.countStep_stack (s : State) : s.countStep.stack = s.stack := by
  unfold State.countStep; split <;> rfl
@[simp] theorem State.countStep_sp (s : State) : s.countStep.sp = s.sp := by
  unfold State.countStep; split <;> rfl
@[simp] theorem State.countStep_display (s : State) : s.countStep.display = s.display := by
  unfold State.countStep; split <;> rfl
@[simp] theorem State.countStep_status (s : State) : s.countStep.status = s.status := by
  unfold State.countStep; split <;> rfl
@[simp] theorem State.countStep_mem (s : State) : s.countStep.mem = s.mem := by
  unfold State.countStep; split <;> rfl
@[simp] theorem State.countStep_cycles (s : State) : s.countStep.cycles = s.cycles := by
  unfold State.countStep; split <;> rfl
@[simp] theorem State.countStep_fbUpdate (s : State) : s.countStep.fbUpdate = s.fbUpdate := by
  unfold State.countStep; split <;> rfl
@[simp] theorem State.countStep_env (s : State) : s.countStep.env = s.env := by
  unfold State.countStep; split <;> rfl
@[simp] theorem State.v_countStep (s : State) (r : RegNo) : s.countStep.v r = s.v r := by
  simp [State.v]
@[simp] theorem State.pixel_countStep (s : State) (px : Fin 64) (py : Fin 32) : s.countStep.pixel px py = s.pixel px py := by
  simp [State.pixel]

@[simp] theorem State.finishStep_V (s : State) : s.finishStep.V = s.V := by
  unfold State.finishStep; split <;> simp
@[simp] theorem State.finishStep_I (s : State) : s.finishStep.I = s.I := by
  unfold State.finishStep; split <;> simp
@[simp] theorem State.finishStep_pc (s : State) : s.finishStep.pc = s.pc := by
  unfold State.finishStep; split <;> simp
@[simp] theorem State.finishStep_stack (s : State) : s.finishStep.stack = s.stack := by
  unfold State.finishStep; split <;> simp
@[simp] theorem State.finishStep_sp (s : State) : s.finishStep.sp = s.sp := by
  unfold State.finishStep; split <;> simp
@[simp] theorem State.finishStep_display (s : State) : s.finishStep.display = s.display := by
  unfold State.finishStep; split <;> simp
@[simp] theorem State.finishStep_status (s : State) : s.finishStep.status = s.status := by
  unfold State.finishStep; split <;> simp
@[simp] theorem State.finishStep_mem (s : State) : s.finishStep.mem = s.mem := by
  unfold State.finishStep; split <;> simp
@[simp] theorem State.finishStep_cycles (s : State) : s.finishStep.cycles = s.cycles := by
  unfold State.finishStep; split <;> simp
@[simp] theorem State.finishStep_fbUpdate (s : State) : s.finishStep.fbUpdate = s.fbUpdate := by
  unfold State.finishStep; split <;> simp
@[simp] theorem State.finishStep_env (s : State) : s.finishStep.env = s.env := by
  unfold State.finishStep; split <;> simp
@[simp] theorem State.v_finishStep (s : State) (r : RegNo) : s.finishStep.v r = s.v r := by
  simp [State.v]
@[simp] theorem State.pixel_finishStep (s : State) (px : Fin 64) (py : Fin 32) : s.finishStep.pixel px py = s.pixel px py := by
  simp [State.pixel]

@[simp] theorem State.skipIf_pc (s : State) (c : Bool) : (s.skipIf c).pc = if c then s.pc + 2#16 else s.pc := by
  unfold State.skipIf
  split <;> rfl

@[simp] theorem State.dropTop_sp_val (s : State) : s.dropTop.sp.val = s.sp.val - 1 := rfl

end Sys2Proof.Machine
end

