-- ==== Sys2Proof/Laws/Launch.lean ====
section
/-! SUPPORT. The launch of a run: what pre-seeding does to each field, what memory holds after it, and that every state
`launch` answers is a launch state (70_reset_and_hazards.md R202, R203). -/
namespace Sys2Proof.Machine

@[simp] theorem State.preSeed_I (s : State) (d : Seed) : (s.preSeed d).I = d.I.getD s.I := rfl
@[simp] theorem State.preSeed_pc (s : State) (d : Seed) : (s.preSeed d).pc = d.pc.getD s.pc := rfl
@[simp] theorem State.preSeed_DT (s : State) (d : Seed) : (s.preSeed d).DT = d.DT.getD s.DT := rfl
@[simp] theorem State.preSeed_ST (s : State) (d : Seed) : (s.preSeed d).ST = d.ST.getD s.ST := rfl
@[simp] theorem State.preSeed_stack (s : State) (d : Seed) :
    (s.preSeed d).stack = (d.stack.map Prod.fst).getD s.stack := rfl
@[simp] theorem State.preSeed_sp (s : State) (d : Seed) : (s.preSeed d).sp = (d.stack.map Prod.snd).getD s.sp := rfl
@[simp] theorem State.preSeed_display (s : State) (d : Seed) : (s.preSeed d).display = d.display.getD s.display := rfl
@[simp] theorem State.preSeed_steps (s : State) (d : Seed) : (s.preSeed d).steps = d.steps.getD s.steps := rfl
@[simp] theorem State.preSeed_status (s : State) (d : Seed) : (s.preSeed d).status = s.status := rfl
@[simp] theorem State.preSeed_mem (s : State) (d : Seed) : (s.preSeed d).mem = Memory.place s.mem d.mem := rfl
@[simp] theorem State.preSeed_cycles (s : State) (d : Seed) : (s.preSeed d).cycles = s.cycles := rfl
@[simp] theorem State.preSeed_fbUpdate (s : State) (d : Seed) : (s.preSeed d).fbUpdate = s.fbUpdate := rfl
@[simp] theorem State.preSeed_env (s : State) (d : Seed) : (s.preSeed d).env = s.env := rfl

@[simp] theorem State.v_preSeed (s : State) (d : Seed) (r : RegNo) :
    (s.preSeed d).v r = (d.V[r.toNat]'r.isLt).getD (s.v r) := by
  simp [State.v, State.preSeed]

/-- Applying the seed that sets nothing changes nothing. -/
@[simp] theorem State.preSeed_nothing (s : State) : s.preSeed Seed.nothing = s := by
  have h : (s.preSeed Seed.nothing).V = s.V := by
    apply Vector.ext
    intro i hi
    simp [State.preSeed, Seed.nothing]
  have e : s.preSeed Seed.nothing = { s with V := (s.preSeed Seed.nothing).V } := rfl
  rw [e, h]

/-- Placing bytes of main memory keeps the canonical form. -/
theorem Memory.place_wf (cells : List Host.Cell) (m : Memory) (h : Memory.wf m = true)
    (hc : ∀ c ∈ cells, c.1 < Config.memSize) : Memory.wf (Memory.place m cells) = true := by
  induction cells with
  | nil => exact h
  | cons c cells ih =>
    exact Memory.write_wf _ _ (ih fun d hd => hc d (List.mem_cons_of_mem _ hd)) (hc c List.mem_cons_self)

/-- Placing bytes above the font table keeps it intact. -/
theorem Memory.place_fontIntact (cells : List Host.Cell) (m : Memory) (h : Memory.fontIntact m = true)
    (hc : ∀ c ∈ cells, Config.fontSize ≤ c.1) : Memory.fontIntact (Memory.place m cells) = true := by
  induction cells with
  | nil => exact h
  | cons c cells ih =>
    exact Memory.write_fontIntact _ _ (ih fun d hd => hc d (List.mem_cons_of_mem _ hd)) (hc c List.mem_cons_self)

/-- After placing, a listed address reads its first byte of the list and every other address as before. -/
theorem Memory.read_place (cells : List Host.Cell) (m : Memory) (a : Nat) (h : Memory.wf m = true)
    (hc : ∀ c ∈ cells, c.1 < Config.memSize) :
    Memory.read (Memory.place m cells) a = (cells.lookup a).getD (Memory.read m a) := by
  induction cells with
  | nil => rfl
  | cons c cells ih =>
    have hc' : ∀ d ∈ cells, d.1 < Config.memSize := fun d hd => hc d (List.mem_cons_of_mem _ hd)
    show Memory.read (Memory.write (Memory.place m cells) c.1 c.2) a = _
    by_cases ha : a = c.1
    · subst ha
      rw [Memory.read_write_same _ _ _ (Memory.place_wf cells m h hc'), List.lookup_cons_self]
      rfl
    · rw [Memory.read_write_ne _ _ ha, ih hc', List.lookup_cons, beq_false_of_ne ha]

theorem Seed.inMemory_iff (d : Seed) : d.inMemory = true ↔ ∀ c ∈ d.mem, c.1 < Config.memSize := by
  simp [Seed.inMemory]

/-- Everything `launch` can do: it answers the ROM loaded and the seed applied, exactly when the ROM fits, the seed stays
in memory and the font table is intact (R201 to R203). -/
theorem launch_eq_some_iff (rom : List Byte) (d : Seed) (s : State) :
    launch rom d = some s ↔ romFits rom = true ∧ d.inMemory = true ∧ Memory.fontIntact s.mem = true ∧
      s = (State.reset.storeBytes Config.romBase rom).preSeed d := by
  unfold launch State.loadRom
  by_cases hr : romFits rom = true
  · simp only [hr, if_true, true_and, Bool.and_eq_true]
    split
    · rename_i h
      constructor
      · intro e; cases e; exact ⟨h.1, h.2, rfl⟩
      · rintro ⟨-, -, e⟩; rw [e]
    · rename_i h
      constructor
      · intro e; cases e
      · rintro ⟨h1, h2, e⟩; exact absurd ⟨h1, e ▸ h2⟩ h
  · simp [hr]

/-- The memory right after the ROM is loaded: canonical, the ROM's bytes in place, the rest as at reset (R201). -/
theorem reset_storeBytes_rom (rom : List Byte) (h : romFits rom = true) :
    Memory.wf (State.reset.storeBytes Config.romBase rom).mem = true ∧
    (∀ i (hi : i < rom.length), Memory.read (State.reset.storeBytes Config.romBase rom).mem (0x200 + i) = rom[i]) ∧
    (∀ a, (a < 0x200 ∨ 0x200 + rom.length ≤ a) →
      Memory.read (State.reset.storeBytes Config.romBase rom).mem a = Config.unwritten a) := by
  have hl : rom.length ≤ 3584 := of_decide_eq_true h
  have hw : Config.romBase + rom.length ≤ Config.memSize := by show 0x200 + rom.length ≤ 0x1000; omega
  exact ⟨Memory.writeBytes_wf rom _ reset_mem_wf.1 hw,
    fun i hi => Memory.read_writeBytes_inside rom _ reset_mem_wf.1 hw hi,
    fun a ha => Memory.read_writeBytes_outside rom _ ha⟩

/-- Every state that `launch` answers is a launch state of its ROM and seed (R203). -/
theorem launch_launches {rom : List Byte} {d : Seed} {s : State} (h : launch rom d = some s) : s.Launch rom d := by
  obtain ⟨hr, hm, hf, rfl⟩ := (launch_eq_some_iff rom d s).1 h
  obtain ⟨hw, hin, hout⟩ := reset_storeBytes_rom rom hr
  have hc := (Seed.inMemory_iff d).1 hm
  have hread := fun a => Memory.read_place d.mem _ a hw hc
  refine ⟨⟨?_, ?_, ?_, ?_, ?_, ?_, ?_, ?_, ?_⟩, ⟨hr, hm, ⟨Memory.place_wf d.mem _ hw hc, hf⟩, rfl, ?_, ?_, ?_, ?_⟩,
    ?_, ⟨?_, ?_, ?_, ?_⟩, ?_⟩
  · intro r b e; simp [e]
  · intro w e; simp [e]
  · intro w e; simp [e]
  · intro b e; simp [e]
  · intro b e; simp [e]
  · intro entries n e; simp [e]
  · intro p e; simp [e]
  · intro k e; simp [e]
  · intro a b e; rw [State.preSeed_mem, hread, e]; rfl
  · intro e; rw [State.preSeed_pc, e]; rfl
  · intro e; rw [State.preSeed_sp, e]; rfl
  · intro e x y; simp [State.pixel, e, State.storeBytes, State.reset]
  · intro i hi e; rw [State.preSeed_mem, hread, e]; exact hin i hi
  · intro e; rw [State.preSeed_steps, e]; rfl
  · intro r e; rw [State.v_preSeed, e]; simp [State.v, State.storeBytes, State.reset, Config.initV]
  · intro e; rw [State.preSeed_I, e]; rfl
  · intro e; rw [State.preSeed_DT, e]; rfl
  · intro e; rw [State.preSeed_ST, e]; rfl
  · intro a h1 h2 _ e
    rw [State.preSeed_mem, hread, e]
    show Memory.read _ a = _
    rw [hout a h2]
    exact List.getD_eq_default _ _ h1

/-- A launch completes for every ROM that fits and every seed whose bytes lie in memory above the font table. -/
theorem launch_completes {rom : List Byte} {d : Seed} (hr : romFits rom = true)
    (hc : ∀ c ∈ d.mem, 0x050 ≤ c.1 ∧ c.1 < Config.memSize) : ∃ s, launch rom d = some s := by
  refine ⟨_, (launch_eq_some_iff rom d _).2 ⟨hr, (Seed.inMemory_iff d).2 fun c h => (hc c h).2, ?_, rfl⟩⟩
  refine Memory.place_fontIntact d.mem _ ?_ fun c h => (hc c h).1
  exact Memory.writeBytes_fontIntact rom _ reset_mem_wf.2 (by decide)

/-- A plain launch is the ROM loaded into the reset state, and nothing more (R203). -/
theorem plain_launch (rom : List Byte) : launch rom Seed.nothing = State.reset.loadRom rom := by
  by_cases hr : romFits rom = true
  · obtain ⟨s, h⟩ := launch_completes (d := Seed.nothing) hr (by simp [Seed.nothing])
    rw [h, ((launch_eq_some_iff _ _ _).1 h).2.2.2]
    simp [State.loadRom, hr]
  · simp [launch, State.loadRom, hr]

/-- A ROM that does not fit launches nothing (R201, D29; log 22). -/
theorem launch_refuses_long_rom {rom : List Byte} (d : Seed) (h : romFits rom = false) : launch rom d = none := by
  simp [launch, State.loadRom, h]

end Sys2Proof.Machine
end

