-- ==== Sys2Proof/Laws/Ops.lean ====
section
/-! SUPPORT. For each shared operation, one lemma that says everything it can do; the provers cite these instead of
unfolding the operation. -/
namespace Sys2Proof.Machine

/-- `unlessFault` either takes the fault or gives the effect. -/
theorem State.unlessFault_cases (s t : State) (f : Option FaultRecord) :
    (∃ r, f = some r ∧ s.unlessFault f t = s.takeFault r) ∨ (f = none ∧ s.unlessFault f t = t) := by
  cases f with
  | none => exact .inr ⟨rfl, rfl⟩
  | some r => exact .inl ⟨r, rfl, rfl⟩

@[simp] theorem State.unlessFault_none (s t : State) : s.unlessFault none t = t := rfl

@[simp] theorem State.unlessFault_some (s t : State) (r : FaultRecord) : s.unlessFault (some r) t = s.takeFault r := rfl

/-- A fetch faults exactly above 0xFFE, carrying pc (R91). -/
theorem State.fetchFault_cases (s : State) :
    (s.pc.toNat > 0xFFE ∧ s.fetchFault = some ⟨.addressOutOfRange, s.pc⟩) ∨ (s.pc.toNat ≤ 0xFFE ∧ s.fetchFault = none) := by
  unfold State.fetchFault
  by_cases h : s.pc.toNat > 0xFFE
  · exact .inl ⟨h, if_pos h⟩
  · exact .inr ⟨by omega, if_neg h⟩

/-- A push faults exactly on a full stack, carrying the address (R25, R112). -/
theorem State.pushFault_cases (s : State) (a : Word) :
    (s.sp.val = 16 ∧ s.pushFault a = some ⟨.stackOverflow, a⟩) ∨ (s.sp.val < 16 ∧ s.pushFault a = none) := by
  unfold State.pushFault
  have := s.sp.isLt
  by_cases h : s.sp.val = 16
  · exact .inl ⟨h, if_pos h⟩
  · exact .inr ⟨by omega, if_neg h⟩

/-- A pop faults exactly on an empty stack (R25, R110). -/
theorem State.popFault_cases (s : State) :
    (s.sp.val = 0 ∧ s.popFault = some ⟨.emptyStack, 0x0000#16⟩) ∨ (0 < s.sp.val ∧ s.popFault = none) := by
  unfold State.popFault
  by_cases h : s.sp.val = 0
  · exact .inl ⟨h, if_pos h⟩
  · exact .inr ⟨by omega, if_neg h⟩

/-- A read range faults exactly when it is not empty and passes 0xFFF, carrying max(I, 0x1000) (R55). -/
theorem State.readRangeFault_cases (s : State) (n : Nat) :
    ((1 ≤ n ∧ s.I.toNat + n > 0x1000) ∧
      s.readRangeFault n = some ⟨.addressOutOfRange, BitVec.ofNat 16 (max s.I.toNat 0x1000)⟩) ∨
    (¬ (1 ≤ n ∧ s.I.toNat + n > 0x1000) ∧ s.readRangeFault n = none) := by
  unfold State.readRangeFault
  by_cases h : n ≥ 1 ∧ s.I.toNat + n - 1 > 0xFFF
  · exact .inl ⟨by omega, if_pos h⟩
  · exact .inr ⟨by omega, if_neg h⟩

/-- A store range faults as a read range does, and then exactly below 0x050, carrying I (R55, R56). -/
theorem State.storeRangeFault_cases (s : State) (n : Nat) (hn : 1 ≤ n) :
    (s.I.toNat + n > 0x1000 ∧
      s.storeRangeFault n = some ⟨.addressOutOfRange, BitVec.ofNat 16 (max s.I.toNat 0x1000)⟩) ∨
    (s.I.toNat + n ≤ 0x1000 ∧ s.I.toNat < 0x050 ∧ s.storeRangeFault n = some ⟨.fontWrite, s.I⟩) ∨
    (s.I.toNat + n ≤ 0x1000 ∧ 0x050 ≤ s.I.toNat ∧ s.storeRangeFault n = none) := by
  unfold State.storeRangeFault
  rcases s.readRangeFault_cases n with ⟨h, e⟩ | ⟨h, e⟩ <;> rw [e]
  · exact .inl ⟨by omega, rfl⟩
  · by_cases hf : s.I.toNat < 0x050
    · exact .inr (.inl ⟨by omega, hf, if_pos hf⟩)
    · exact .inr (.inr ⟨by omega, by omega, if_neg hf⟩)

/-- A push on a stack with room writes the entry above the top and counts it; the other entries stay (R25). -/
theorem State.pushStack_spec (s : State) (a : Word) (h : s.sp.val < 16) :
    (s.pushStack a).sp.val = s.sp.val + 1 ∧ (s.pushStack a).stack = s.stack.set s.sp.val a h := by
  simp [State.pushStack, h]

/-- The register list of FX55: X + 1 bytes, byte i of it V[i] (R154). -/
@[simp] theorem State.regsUpTo_length (s : State) (x : RegNo) : (s.regsUpTo x).length = x.toNat + 1 := by
  have := x.isLt
  simp [State.regsUpTo]
  omega

theorem State.regsUpTo_getElem (s : State) (x r : RegNo) (h : r.toNat ≤ x.toNat) :
    (s.regsUpTo x)[r.toNat]'(by rw [State.regsUpTo_length]; omega) = s.v r := by
  simp [State.regsUpTo, State.v]

@[simp] theorem bcdDigits_length (v : Byte) : (bcdDigits v).length = 3 := rfl

/-- A drawn display: every pixel XOR the sprite bit over it (R161). -/
@[simp] theorem State.pixel_setDisplay_drawSprite (s : State) (d : Bitmap) (rows : List Byte) (ox oy : Nat)
    (x : Fin 64) (y : Fin 32) :
    (s.setDisplay (drawSprite d rows ox oy)).pixel x y =
      (((d[y.val]'y.isLt)[x.val]'x.isLt) ^^ spriteBit rows ox oy x.val y.val) := by
  simp [State.pixel, drawSprite]

/-- A cleared display. -/
@[simp] theorem State.pixel_setDisplay_blank (s : State) (x : Fin 64) (y : Fin 32) :
    (s.setDisplay blankDisplay).pixel x y = false := by
  simp [State.pixel, blankDisplay]

/-- A flag byte is 0 or 1, and 1 exactly when the condition holds (R22). -/
@[simp] theorem flagByte_eq_one (c : Bool) : flagByte c = 0x01#8 ↔ c = true := by cases c <;> decide

@[simp] theorem flagByte_eq_zero (c : Bool) : flagByte c = 0x00#8 ↔ c = false := by cases c <;> decide

/-- Counting a step: below the 8th the count alone moves, at the 8th it is 0 again and both timers tick (R94, R95). -/
theorem State.countStep_cases (s : State) :
    (s.steps.val < 7 ∧ s.countStep.steps.val = s.steps.val + 1 ∧ s.countStep.DT = s.DT ∧ s.countStep.ST = s.ST) ∨
    (s.steps.val = 7 ∧ s.countStep.steps.val = 0 ∧ s.countStep.DT = tickTimer s.DT ∧ s.countStep.ST = tickTimer s.ST) := by
  have := s.steps.isLt
  unfold State.countStep
  by_cases h : s.steps.val + 1 < 8
  · rw [dif_pos h]; exact .inl ⟨by omega, rfl, rfl, rfl⟩
  · rw [dif_neg h]; exact .inr ⟨by omega, rfl, rfl, rfl⟩

/-- A tick takes one from a timer and stops at zero (R27). -/
@[simp] theorem tickTimer_toNat (t : Byte) : (tickTimer t).toNat = t.toNat - 1 := by
  unfold tickTimer
  split
  · bv_omega
  · omega

/-- A step ends uncounted exactly when nothing was reported (R94, R98, R102). -/
theorem State.finishStep_cases (s : State) :
    (s.cycles = .nothing ∧ s.finishStep = s) ∨ (s.cycles ≠ .nothing ∧ s.finishStep = s.countStep) := by
  unfold State.finishStep
  cases h : s.cycles
  · exact .inl ⟨rfl, rfl⟩
  · exact .inr ⟨by simp, rfl⟩
  · exact .inr ⟨by simp, rfl⟩

/-- FX0A completes with the code presented, or waits (R172). -/
theorem State.keyWait_cases (s : State) (x : RegNo) (o : Option Key) :
    (∃ k, o = some k ∧ s.keyWait x o = ((s.setV x (zextKey k)).setEnv s.env.afterNextKey).completedBlocking) ∨
    (o = none ∧ s.keyWait x o = s.waitForKey) := by
  cases o with
  | none => exact .inr ⟨rfl, rfl⟩
  | some k => exact .inl ⟨k, rfl, rfl⟩

/-! The branching operations commute with updates of parts they do not read. -/

theorem State.skipIf_setEnv (s : State) (c : Bool) (e : Env) : (s.setEnv e).skipIf c = (s.skipIf c).setEnv e := by
  cases c <;> rfl

theorem State.skipIf_setST (s : State) (c : Bool) (b : Byte) : (s.setST b).skipIf c = (s.skipIf c).setST b := by
  cases c <;> rfl

theorem State.pushStack_setEnv (s : State) (a : Word) (e : Env) : (s.setEnv e).pushStack a = (s.pushStack a).setEnv e := by
  by_cases h : s.sp.val < 16 <;> simp [State.pushStack, State.setEnv, h]

theorem State.pushStack_setST (s : State) (a : Word) (b : Byte) : (s.setST b).pushStack a = (s.pushStack a).setST b := by
  by_cases h : s.sp.val < 16 <;> simp [State.pushStack, State.setST, h]

end Sys2Proof.Machine
end

