-- ==== Sys2Proof/Laws/PerInstr.lean ====
section
/-! SUPPORT. Statements about an instruction as syntax, one lemma per constructor. Family `EncodingRow`: the encoder gives a
word of the instruction's own row of the opcode map (30_encoding.md R73, R76), and the row is in the map. -/
namespace Sys2Proof.Laws

/-- The word of format `NNN` under the mask of its rows. -/
theorem formatNNN_mask (op : BitVec 4) (nnn : Addr12) : formatNNN op nnn &&& 0xF000#16 = formatNNN op 0x000#12 := by
  unfold formatNNN
  ext i hi
  rw [BitVec.getElem_and, BitVec.getElem_append, BitVec.getElem_append]
  interval_cases i <;> simp

/-- The word of format `XNN` under the mask of the rows with an immediate. -/
theorem formatXNN_mask (op : BitVec 4) (x : RegNo) (nn : Byte) :
    formatXNN op x nn &&& 0xF000#16 = formatXNN op 0x0#4 0x00#8 := by
  unfold formatXNN
  ext i hi
  simp only [BitVec.getElem_and, BitVec.getElem_append (y := nn), BitVec.getElem_append (y := x),
    BitVec.getElem_append (y := 0x00#8), BitVec.getElem_append (y := 0x0#4)]
  interval_cases i <;> simp

/-- The word of format `X` under the mask that fixes the low byte. -/
theorem formatX_mask (op : BitVec 4) (x : RegNo) (nn : Byte) :
    formatXNN op x nn &&& 0xF0FF#16 = formatXNN op 0x0#4 nn := by
  unfold formatXNN
  ext i hi
  simp only [BitVec.getElem_and, BitVec.getElem_append (y := nn), BitVec.getElem_append (y := x),
    BitVec.getElem_append (y := 0x0#4)]
  interval_cases i <;> simp

/-- The word of formats `XY` and `XYN`, nibble by nibble, for the two lemmas below. -/
theorem formatXYN_getElem (op : BitVec 4) (x y : RegNo) (n : BitVec 4) (i : Nat) (hi : i < 16) :
    (formatXYN op x y n)[i] =
      if i < 4 then n.getLsbD i else if i < 8 then y.getLsbD (i - 4)
      else if i < 12 then x.getLsbD (i - 8) else op.getLsbD (i - 12) := by
  simp only [formatXYN, BitVec.getElem_append (y := n), BitVec.getElem_append (y := y), BitVec.getElem_append (y := x)]
  interval_cases i <;> rfl

/-- The word of format `XY` under the mask that fixes the last nibble. -/
theorem formatXY_mask (op : BitVec 4) (x y : RegNo) (n : BitVec 4) :
    formatXYN op x y n &&& 0xF00F#16 = formatXYN op 0x0#4 0x0#4 n := by
  ext i hi
  rw [BitVec.getElem_and, formatXYN_getElem, formatXYN_getElem]
  interval_cases i <;> simp

/-- The word of format `XYN` under the mask of DXYN. -/
theorem formatXYN_mask (op : BitVec 4) (x y : RegNo) (n : BitVec 4) :
    formatXYN op x y n &&& 0xF000#16 = formatXYN op 0x0#4 0x0#4 0x0#4 := by
  ext i hi
  rw [BitVec.getElem_and, formatXYN_getElem, formatXYN_getElem]
  interval_cases i <;> simp

/-- The instruction's row is in the map and selects the instruction's word. -/
def EncodingRow.Statement (i : Instr) : Prop := i.row ∈ opcodeMap ∧ i.row.selects (encode i) = true

theorem EncodingRow.op00E0 : EncodingRow.Statement .op00E0 :=
  ⟨by decide, by decide⟩

theorem EncodingRow.op00EE : EncodingRow.Statement .op00EE :=
  ⟨by decide, by decide⟩

theorem EncodingRow.op1NNN (nnn : Addr12) : EncodingRow.Statement (.op1NNN nnn) :=
  ⟨by simp [opcodeMap, Instr.row], by rw [OpcodeRow.selects, Instr.row, encode, formatNNN_mask]; decide⟩

theorem EncodingRow.op2NNN (nnn : Addr12) : EncodingRow.Statement (.op2NNN nnn) :=
  ⟨by simp [opcodeMap, Instr.row], by rw [OpcodeRow.selects, Instr.row, encode, formatNNN_mask]; decide⟩

theorem EncodingRow.op3XNN (x : RegNo) (nn : Byte) : EncodingRow.Statement (.op3XNN x nn) :=
  ⟨by simp [opcodeMap, Instr.row], by rw [OpcodeRow.selects, Instr.row, encode, formatXNN_mask]; decide⟩

theorem EncodingRow.op4XNN (x : RegNo) (nn : Byte) : EncodingRow.Statement (.op4XNN x nn) :=
  ⟨by simp [opcodeMap, Instr.row], by rw [OpcodeRow.selects, Instr.row, encode, formatXNN_mask]; decide⟩

theorem EncodingRow.op5XY0 (x y : RegNo) : EncodingRow.Statement (.op5XY0 x y) :=
  ⟨by simp [opcodeMap, Instr.row], by rw [OpcodeRow.selects, Instr.row, encode, formatXY_mask]; decide⟩

theorem EncodingRow.op6XNN (x : RegNo) (nn : Byte) : EncodingRow.Statement (.op6XNN x nn) :=
  ⟨by simp [opcodeMap, Instr.row], by rw [OpcodeRow.selects, Instr.row, encode, formatXNN_mask]; decide⟩

theorem EncodingRow.op7XNN (x : RegNo) (nn : Byte) : EncodingRow.Statement (.op7XNN x nn) :=
  ⟨by simp [opcodeMap, Instr.row], by rw [OpcodeRow.selects, Instr.row, encode, formatXNN_mask]; decide⟩

theorem EncodingRow.op8XY0 (x y : RegNo) : EncodingRow.Statement (.op8XY0 x y) :=
  ⟨by simp [opcodeMap, Instr.row], by rw [OpcodeRow.selects, Instr.row, encode, formatXY_mask]; decide⟩

theorem EncodingRow.op8XY1 (x y : RegNo) : EncodingRow.Statement (.op8XY1 x y) :=
  ⟨by simp [opcodeMap, Instr.row], by rw [OpcodeRow.selects, Instr.row, encode, formatXY_mask]; decide⟩

theorem EncodingRow.op8XY2 (x y : RegNo) : EncodingRow.Statement (.op8XY2 x y) :=
  ⟨by simp [opcodeMap, Instr.row], by rw [OpcodeRow.selects, Instr.row, encode, formatXY_mask]; decide⟩

theorem EncodingRow.op8XY3 (x y : RegNo) : EncodingRow.Statement (.op8XY3 x y) :=
  ⟨by simp [opcodeMap, Instr.row], by rw [OpcodeRow.selects, Instr.row, encode, formatXY_mask]; decide⟩

theorem EncodingRow.op8XY4 (x y : RegNo) : EncodingRow.Statement (.op8XY4 x y) :=
  ⟨by simp [opcodeMap, Instr.row], by rw [OpcodeRow.selects, Instr.row, encode, formatXY_mask]; decide⟩

theorem EncodingRow.op8XY5 (x y : RegNo) : EncodingRow.Statement (.op8XY5 x y) :=
  ⟨by simp [opcodeMap, Instr.row], by rw [OpcodeRow.selects, Instr.row, encode, formatXY_mask]; decide⟩

theorem EncodingRow.op8XY6 (x y : RegNo) : EncodingRow.Statement (.op8XY6 x y) :=
  ⟨by simp [opcodeMap, Instr.row], by rw [OpcodeRow.selects, Instr.row, encode, formatXY_mask]; decide⟩

theorem EncodingRow.op8XY7 (x y : RegNo) : EncodingRow.Statement (.op8XY7 x y) :=
  ⟨by simp [opcodeMap, Instr.row], by rw [OpcodeRow.selects, Instr.row, encode, formatXY_mask]; decide⟩

theorem EncodingRow.op8XYE (x y : RegNo) : EncodingRow.Statement (.op8XYE x y) :=
  ⟨by simp [opcodeMap, Instr.row], by rw [OpcodeRow.selects, Instr.row, encode, formatXY_mask]; decide⟩

theorem EncodingRow.op9XY0 (x y : RegNo) : EncodingRow.Statement (.op9XY0 x y) :=
  ⟨by simp [opcodeMap, Instr.row], by rw [OpcodeRow.selects, Instr.row, encode, formatXY_mask]; decide⟩

theorem EncodingRow.opANNN (nnn : Addr12) : EncodingRow.Statement (.opANNN nnn) :=
  ⟨by simp [opcodeMap, Instr.row], by rw [OpcodeRow.selects, Instr.row, encode, formatNNN_mask]; decide⟩

theorem EncodingRow.opBNNN (nnn : Addr12) : EncodingRow.Statement (.opBNNN nnn) :=
  ⟨by simp [opcodeMap, Instr.row], by rw [OpcodeRow.selects, Instr.row, encode, formatNNN_mask]; decide⟩

theorem EncodingRow.opCXNN (x : RegNo) (nn : Byte) : EncodingRow.Statement (.opCXNN x nn) :=
  ⟨by simp [opcodeMap, Instr.row], by rw [OpcodeRow.selects, Instr.row, encode, formatXNN_mask]; decide⟩

theorem EncodingRow.opDXYN (x y : RegNo) (n : Nibble) : EncodingRow.Statement (.opDXYN x y n) :=
  ⟨by simp [opcodeMap, Instr.row], by rw [OpcodeRow.selects, Instr.row, encode, formatXYN_mask]; decide⟩

theorem EncodingRow.opEX9E (x : RegNo) : EncodingRow.Statement (.opEX9E x) :=
  ⟨by simp [opcodeMap, Instr.row], by rw [OpcodeRow.selects, Instr.row, encode, formatX_mask]; decide⟩

theorem EncodingRow.opEXA1 (x : RegNo) : EncodingRow.Statement (.opEXA1 x) :=
  ⟨by simp [opcodeMap, Instr.row], by rw [OpcodeRow.selects, Instr.row, encode, formatX_mask]; decide⟩

theorem EncodingRow.opFX07 (x : RegNo) : EncodingRow.Statement (.opFX07 x) :=
  ⟨by simp [opcodeMap, Instr.row], by rw [OpcodeRow.selects, Instr.row, encode, formatX_mask]; decide⟩

theorem EncodingRow.opFX0A (x : RegNo) : EncodingRow.Statement (.opFX0A x) :=
  ⟨by simp [opcodeMap, Instr.row], by rw [OpcodeRow.selects, Instr.row, encode, formatX_mask]; decide⟩

theorem EncodingRow.opFX15 (x : RegNo) : EncodingRow.Statement (.opFX15 x) :=
  ⟨by simp [opcodeMap, Instr.row], by rw [OpcodeRow.selects, Instr.row, encode, formatX_mask]; decide⟩

theorem EncodingRow.opFX18 (x : RegNo) : EncodingRow.Statement (.opFX18 x) :=
  ⟨by simp [opcodeMap, Instr.row], by rw [OpcodeRow.selects, Instr.row, encode, formatX_mask]; decide⟩

theorem EncodingRow.opFX1E (x : RegNo) : EncodingRow.Statement (.opFX1E x) :=
  ⟨by simp [opcodeMap, Instr.row], by rw [OpcodeRow.selects, Instr.row, encode, formatX_mask]; decide⟩

theorem EncodingRow.opFX29 (x : RegNo) : EncodingRow.Statement (.opFX29 x) :=
  ⟨by simp [opcodeMap, Instr.row], by rw [OpcodeRow.selects, Instr.row, encode, formatX_mask]; decide⟩

theorem EncodingRow.opFX33 (x : RegNo) : EncodingRow.Statement (.opFX33 x) :=
  ⟨by simp [opcodeMap, Instr.row], by rw [OpcodeRow.selects, Instr.row, encode, formatX_mask]; decide⟩

theorem EncodingRow.opFX55 (x : RegNo) : EncodingRow.Statement (.opFX55 x) :=
  ⟨by simp [opcodeMap, Instr.row], by rw [OpcodeRow.selects, Instr.row, encode, formatX_mask]; decide⟩

theorem EncodingRow.opFX65 (x : RegNo) : EncodingRow.Statement (.opFX65 x) :=
  ⟨by simp [opcodeMap, Instr.row], by rw [OpcodeRow.selects, Instr.row, encode, formatX_mask]; decide⟩

end Sys2Proof.Laws
end

