-- ==== Sys2Proof/Laws/Step.lean ====
section
/-! SUPPORT. What one step can do, said once: the inversion of `step`, from which invariants are derived. -/
namespace Sys2Proof.Machine

/-- If a step answers a next state, the core was running and one of three things happened: the fetch faulted, the word
was illegal, or the decoded instruction ran and the step was finished (R90, R98). -/
theorem step_cases {s u : State} (h : step s = .next u) :
    s.status = .running ∧
    ((s.pc.toNat > 0xFFE ∧ u = s.takeFault ⟨.addressOutOfRange, s.pc⟩) ∨
     (s.pc.toNat ≤ 0xFFE ∧ (∃ e, decodeWord s.fetchWord = .error e) ∧
       u = s.advancePc.takeFault ⟨.unimplementedOpcode, s.fetchWord⟩) ∨
     (s.pc.toNat ≤ 0xFFE ∧ ∃ i t, decodeWord s.fetchWord = .ok i ∧ exec i s.advancePc = .next t ∧ u = t.finishStep)) := by
  unfold step at h
  split at h
  · cases h
  · rename_i hs
    refine ⟨hs, ?_⟩
    rcases s.fetchFault_cases with ⟨hp, e⟩ | ⟨hp, e⟩ <;> rw [e] at h
    · cases h; exact .inl ⟨hp, rfl⟩
    · refine .inr ?_
      dsimp only at h
      split at h
      · cases h; exact .inl ⟨hp, ⟨_, ‹_›⟩, rfl⟩
      · split at h
        · cases h; exact .inr ⟨hp, _, _, ‹_›, ‹_›, rfl⟩
        · cases h
        · cases h

/-- The step of a core that can fetch a legal word: the instruction runs and the step is finished (R90). -/
theorem step_of_decode {s : State} {i : Instr} (hs : s.status = .running) (hp : s.pc.toNat ≤ 0xFFE)
    (hd : decodeWord s.fetchWord = .ok i) :
    step s = match exec i s.advancePc with
      | .next t => .next t.finishStep
      | .fault f => .fault f
      | .refused r => .refused r := by
  rcases s.fetchFault_cases with ⟨h, -⟩ | ⟨-, e⟩
  · omega
  · cases h : exec i s.advancePc <;> simp only [step, hs, e, hd, h]

/-- Running on: a run of one more step is the run from where that step ends. -/
theorem core_run_succ {s s' : State} (h : step s = .next s') (n : Nat) :
    Sys2Proof.core.run (n + 1) s = Sys2Proof.core.run n s' := by
  have h' : Sys2Proof.core.step s = .next s' := h
  simp only [Host.Core.run, h']

/-- A frame statement over all parts at once, for the proofs: each part outside the list is shown unchanged. -/
theorem frameExcept_iff (ps : List Part) (s t : State) : FrameExcept ps s t ↔
    (.V ∉ ps → ∀ r, t.v r = s.v r) ∧ (.I ∉ ps → t.I = s.I) ∧ (.pc ∉ ps → t.pc = s.pc) ∧
    (.stack ∉ ps → t.stack = s.stack ∧ t.sp = s.sp) ∧ (.display ∉ ps → ∀ x y, t.pixel x y = s.pixel x y) ∧
    (.DT ∉ ps → t.DT = s.DT) ∧ (.ST ∉ ps → t.ST = s.ST) ∧ (.steps ∉ ps → t.steps = s.steps) ∧
    (.status ∉ ps → t.status = s.status) ∧ (.mem ∉ ps → ∀ a, Memory.read t.mem a = Memory.read s.mem a) ∧
    (.outputs ∉ ps → t.cycles = s.cycles ∧ t.fbUpdate = s.fbUpdate) ∧ (.env ∉ ps → t.env = s.env) := by
  constructor
  · intro h
    exact ⟨h .V, h .I, h .pc, h .stack, h .display, h .DT, h .ST, h .steps, h .status, h .mem, h .outputs, h .env⟩
  · rintro ⟨hV, hI, hpc, hst, hd, hDT, hST, hs, hstat, hm, ho, he⟩ p hp
    cases p
    · exact hV hp
    · exact hI hp
    · exact hpc hp
    · exact hst hp
    · exact hd hp
    · exact hDT hp
    · exact hST hp
    · exact hs hp
    · exact hstat hp
    · exact hm hp
    · exact ho hp
    · exact he hp

end Sys2Proof.Machine
end

