-- ==== Sys2Proof/Tests/Slice0.lean ====
section
/-! SUPPORT. Tests of the model and witnesses for the statements. Expected results are those of spec/95_test_vectors.md
(the vector is named in each docstring) or words written out from the encodings of spec/30_encoding.md R73 and R76. -/
namespace Sys2Proof.Tests
open Sys2Proof.Machine

/-! ### Small states and one-step checks -/

/-- The outcome is a next state with the property. -/
def runs (o : Host.Outcome State Fault Refusal) (p : State → Bool) : Bool :=
  match o with
  | .next t => p t
  | .fault _ => false
  | .refused _ => false

/-- The plain launch state with registers set. -/
def regs (l : List (RegNo × Byte)) : State := l.foldl (fun s p => s.setV p.1 p.2) State.reset

/-- One step of the word placed at pc ends in a next state with the property. -/
def after (s : State) (w : Nat) (p : State → Bool) : Bool := runs (step (s.withFetchWord 16 w)) p

/-- A return address in each of the first `n` stack entries. -/
def stacked (n : Fin 17) (a : Word) : State := { State.reset with sp := n, stack := Vector.replicate 16 a }

/-- The fault that a state has recorded. -/
def faultIs (t : State) (k : FaultKind) (info : Word) : Bool := t.status == .faulted ⟨k, info⟩

/-- A keypad sample with one key down. -/
def onlyKey (k : Nat) : KeypadSample := { keyDown := BitVec.ofNat 16 (2 ^ k), outside := false }

/-- Registers set, and I. -/
def regsI (l : List (RegNo × Byte)) (i : Word) : State := (regs l).setI i

/-- The launch state with the environment's answers lined up. -/
def answering (r : List Byte) (k : List KeypadSample) (p : List (Option Key)) (s : State) : State :=
  s.setEnv ⟨r, k, p, 0⟩

/-! ### Decoding: one word per constructor (R73, R76) -/

theorem test_decode_00E0 : decodeWord 0x00E0#16 = .ok .op00E0 := by decide

theorem test_decode_00EE : decodeWord 0x00EE#16 = .ok .op00EE := by decide

theorem test_decode_1NNN : decodeWord 0x1ABC#16 = .ok (.op1NNN 0xABC#12) := by decide

theorem test_decode_2NNN : decodeWord 0x2F01#16 = .ok (.op2NNN 0xF01#12) := by decide

theorem test_decode_3XNN : decodeWord 0x3A10#16 = .ok (.op3XNN 0xA#4 0x10#8) := by decide

theorem test_decode_4XNN : decodeWord 0x4B7F#16 = .ok (.op4XNN 0xB#4 0x7F#8) := by decide

theorem test_decode_5XY0 : decodeWord 0x5120#16 = .ok (.op5XY0 0x1#4 0x2#4) := by decide

theorem test_decode_6XNN : decodeWord 0x6F2A#16 = .ok (.op6XNN 0xF#4 0x2A#8) := by decide

theorem test_decode_7XNN : decodeWord 0x71FF#16 = .ok (.op7XNN 0x1#4 0xFF#8) := by decide

theorem test_decode_8XY0 : decodeWord 0x8120#16 = .ok (.op8XY0 0x1#4 0x2#4) := by decide

theorem test_decode_8XY1 : decodeWord 0x8C31#16 = .ok (.op8XY1 0xC#4 0x3#4) := by decide

theorem test_decode_8XY2 : decodeWord 0x8452#16 = .ok (.op8XY2 0x4#4 0x5#4) := by decide

theorem test_decode_8XY3 : decodeWord 0x8673#16 = .ok (.op8XY3 0x6#4 0x7#4) := by decide

theorem test_decode_8XY4 : decodeWord 0x8014#16 = .ok (.op8XY4 0x0#4 0x1#4) := by decide

theorem test_decode_8XY5 : decodeWord 0x89A5#16 = .ok (.op8XY5 0x9#4 0xA#4) := by decide

theorem test_decode_8XY6 : decodeWord 0x8316#16 = .ok (.op8XY6 0x3#4 0x1#4) := by decide

theorem test_decode_8XY7 : decodeWord 0x8BC7#16 = .ok (.op8XY7 0xB#4 0xC#4) := by decide

theorem test_decode_8XYE : decodeWord 0x8DEE#16 = .ok (.op8XYE 0xD#4 0xE#4) := by decide

theorem test_decode_9XY0 : decodeWord 0x9120#16 = .ok (.op9XY0 0x1#4 0x2#4) := by decide

theorem test_decode_ANNN : decodeWord 0xA2F0#16 = .ok (.opANNN 0x2F0#12) := by decide

theorem test_decode_BNNN : decodeWord 0xB123#16 = .ok (.opBNNN 0x123#12) := by decide

theorem test_decode_CXNN : decodeWord 0xC30F#16 = .ok (.opCXNN 0x3#4 0x0F#8) := by decide

theorem test_decode_DXYN : decodeWord 0xD125#16 = .ok (.opDXYN 0x1#4 0x2#4 0x5#4) := by decide

theorem test_decode_EX9E : decodeWord 0xE39E#16 = .ok (.opEX9E 0x3#4) := by decide

theorem test_decode_EXA1 : decodeWord 0xE7A1#16 = .ok (.opEXA1 0x7#4) := by decide

theorem test_decode_FX07 : decodeWord 0xF107#16 = .ok (.opFX07 0x1#4) := by decide

theorem test_decode_FX0A : decodeWord 0xF50A#16 = .ok (.opFX0A 0x5#4) := by decide

theorem test_decode_FX15 : decodeWord 0xF215#16 = .ok (.opFX15 0x2#4) := by decide

theorem test_decode_FX18 : decodeWord 0xF318#16 = .ok (.opFX18 0x3#4) := by decide

theorem test_decode_FX1E : decodeWord 0xF41E#16 = .ok (.opFX1E 0x4#4) := by decide

theorem test_decode_FX29 : decodeWord 0xF629#16 = .ok (.opFX29 0x6#4) := by decide

theorem test_decode_FX33 : decodeWord 0xF833#16 = .ok (.opFX33 0x8#4) := by decide

theorem test_decode_FX55 : decodeWord 0xFF55#16 = .ok (.opFX55 0xF#4) := by decide

theorem test_decode_FX65 : decodeWord 0xFA65#16 = .ok (.opFX65 0xA#4) := by decide

/-- Too few bytes make no instruction word (R70). -/
theorem test_decode_truncated : decodeBytes [0x12#8] = .error .truncated := by decide

/-- The rest of the bytes is given back. -/
theorem test_decode_rest : decodeBytes [0x80#8, 0x14#8, 0x60#8] = .ok (.op8XY4 0x0#4 0x1#4, [0x60#8]) := by decide

/-! ### Ill-formed terms are refused (R76, R77, R201, R38) -/

/-- One illegal word for each kind that has any (B1.2, B1.3, B1.6 to B1.13): the check refuses it. -/
theorem test_illegal_words : [0x0000#16, 0x00E1#16, 0x0123#16, 0x5121#16, 0x9001#16, 0x8008#16, 0x800F#16, 0xE09F#16,
    0xE0A2#16, 0xF000#16, 0xF075#16].all (fun w => !legalWord w) = true := by decide

/-- Illegal word of B1.3. -/
theorem test_illegal_00E1 : decodeWord 0x00E1#16 = .error (.unimplementedOpcode 0x00E1#16) := by decide

/-- Illegal word of B1.7. -/
theorem test_illegal_9001 : decodeWord 0x9001#16 = .error (.unimplementedOpcode 0x9001#16) := by decide

/-- Illegal word of B1.9. -/
theorem test_illegal_800F : decodeWord 0x800F#16 = .error (.unimplementedOpcode 0x800F#16) := by decide

/-- Illegal word of B1.10. -/
theorem test_illegal_E09F : decodeWord 0xE09F#16 = .error (.unimplementedOpcode 0xE09F#16) := by decide

/-- Illegal word of B1.13. -/
theorem test_illegal_F075 : decodeWord 0xF075#16 = .error (.unimplementedOpcode 0xF075#16) := by decide

/-- The opcode map of R76 is well formed and has its 34 rows. -/
theorem test_opcode_map : wellFormedMap opcodeMap = true ∧ opcodeMap.length = 34 := by decide

/-- A map in which one word matches two rows is refused. -/
theorem test_overlapping_map_refused :
    wellFormedMap [⟨"5XY0", 0xF00F#16, 0x5000#16⟩, ⟨"5XXX", 0xF000#16, 0x5000#16⟩] = false := by decide

/-- A row that fixes a digit outside its mask is refused. -/
theorem test_stray_bits_refused : wellFormedMap [⟨"1NNN", 0xF000#16, 0x1001#16⟩] = false := by decide

/-- The largest ROM fits and one byte more is refused. -/
theorem test_rom_limit : romFits (List.replicate 3584 0x00#8) = true ∧ romFits (List.replicate 3585 0x00#8) = false := by
  constructor <;> rw [romFits, List.length_replicate] <;> decide

/-- Memories out of canonical form: falling, repeated, equal to the unwritten byte, outside the 4096 bytes. -/
theorem test_ill_formed_memories : ∀ m ∈ [[(0x301, 0x01#8), (0x300, 0x01#8)], [(0x300, 0x01#8), (0x300, 0x02#8)],
    [(0x300, 0x00#8)], [(0x000, 0xF0#8)], [(0x1000, 0x01#8)]], Memory.wf m = false := by decide

/-- A memory whose font table is touched breaks the invariant, and one that is not keeps it. -/
theorem test_font_check : Memory.fontIntact [(0x04F, 0x01#8)] = false ∧ Memory.fontIntact [(0x050, 0x01#8)] = true := by
  decide

/-! ### One step per instruction (spec/95_test_vectors.md Part B) -/

/-- B6.1, the document's A6: all pixels set, VF = 1; first and last pixel after. -/
theorem test_00E0 :
    after { regs [(0xF#4, 0x01#8)] with display := Vector.replicate 32 (Vector.replicate 64 true) } 0x00E0 (fun t =>
      !t.pixel 0 0 && !t.pixel 63 31 && t.v 0xF#4 == 0x01#8 && t.pc == 0x0202#16 && t.fbUpdate && t.cycles == .one) = true := by decide

/-- B2.2. -/
theorem test_00EE_pops_the_top_only :
    after { stacked 2 0x0206#16 with stack := (stacked 2 0x0206#16).stack.set 1 0x0400#16, pc := 0x0300#16 } 0x00EE
      (fun t => t.pc == 0x0400#16 && t.sp == 1) = true := by decide

/-- B2.3. -/
theorem test_00EE_empty :
    after State.reset 0x00EE (fun t => faultIs t .emptyStack 0x0000#16 && t.pc == 0x0202#16 && t.sp == 0 && t.steps == 0) = true := by decide

/-- B2.4. -/
theorem test_1NNN :
    after { State.reset with pc := 0x020A#16 } 0x1204 (fun t => t.pc == 0x0204#16) = true := by decide

/-- B2.7. -/
theorem test_2NNN_last_level :
    after { stacked 15 0x0000#16 with pc := 0x0300#16 } 0x2ABC (fun t =>
      t.stack[15] == 0x0302#16 && t.sp == 16 && t.pc == 0x0ABC#16) = true := by decide

/-- B2.8. -/
theorem test_2NNN_overflow :
    after { stacked 16 0x0206#16 with pc := 0x0300#16 } 0x2ABC (fun t =>
      faultIs t .stackOverflow 0x0302#16 && t.pc == 0x0302#16 && t.sp == 16 && t.stack[15] == 0x0206#16) = true := by decide

/-- B2.10. -/
theorem test_BNNN_not_reduced :
    after (regs [(0x0#4, 0xFF#8)]) 0xBFFF (fun t => t.pc == 0x10FE#16) = true := by decide

/-- B2.11. -/
theorem test_BNNN_uses_V0 :
    after (regs [(0x1#4, 0xFF#8)]) 0xB123 (fun t => t.pc == 0x0123#16) = true := by decide

/-- B3.1, B3.2. -/
theorem test_3XNN :
    (after State.reset 0x3100 (fun t => t.pc == 0x0204#16) &&
      after (regs [(0x1#4, 0x04#8)]) 0x3100 (fun t => t.pc == 0x0202#16)) = true := by decide

/-- B3.3, B3.4. -/
theorem test_4XNN :
    (after (regs [(0xA#4, 0x10#8)]) 0x4A10 (fun t => t.pc == 0x0202#16) &&
      after (regs [(0xA#4, 0x11#8)]) 0x4A10 (fun t => t.pc == 0x0204#16)) = true := by decide

/-- B3.5, B3.6. -/
theorem test_5XY0 :
    (after (regs [(0x1#4, 0x7F#8), (0x2#4, 0x7F#8)]) 0x5120 (fun t => t.pc == 0x0204#16) &&
      after (regs [(0x1#4, 0x01#8), (0x2#4, 0x02#8)]) 0x5120 (fun t => t.pc == 0x0202#16)) = true := by decide

/-- B3.8, B3.9. -/
theorem test_9XY0 :
    (after (regs [(0x1#4, 0x01#8), (0x2#4, 0x02#8)]) 0x9120 (fun t => t.pc == 0x0204#16) &&
      after (regs [(0x1#4, 0x03#8), (0x2#4, 0x03#8)]) 0x9120 (fun t => t.pc == 0x0202#16)) = true := by decide

/-- B3.11, B3.12. -/
theorem test_EX9E :
    (after (answering [] [onlyKey 5] [] (regs [(0x3#4, 0x05#8)])) 0xE39E (fun t => t.pc == 0x0204#16) &&
      after (answering [] [onlyKey 4] [] (regs [(0x3#4, 0x05#8)])) 0xE39E (fun t => t.pc == 0x0202#16)) = true := by decide

/-- B3.13, B3.14. -/
theorem test_EXA1 :
    (after (answering [] [onlyKey 5] [] (regs [(0x3#4, 0x05#8)])) 0xE3A1 (fun t => t.pc == 0x0202#16) &&
      after (answering [] [onlyKey 4] [] (regs [(0x3#4, 0x05#8)])) 0xE3A1 (fun t => t.pc == 0x0204#16)) = true := by decide

/-- B4.1. -/
theorem test_6XNN :
    after State.reset 0x6F2A (fun t => t.v 0xF#4 == 0x2A#8 && t.pc == 0x0202#16) = true := by decide

/-- B1.15. -/
theorem test_6XNN_last_fetchable_address :
    after { State.reset with pc := 0x0FFE#16 } 0x602A (fun t => t.v 0x0#4 == 0x2A#8 && t.pc == 0x1000#16) = true := by decide

/-- B4.2, B4.4. -/
theorem test_7XNN :
    (after (regs [(0x1#4, 0x05#8), (0xF#4, 0x07#8)]) 0x71FF (fun t => t.v 0x1#4 == 0x04#8 && t.v 0xF#4 == 0x07#8) &&
      after (regs [(0xF#4, 0xFF#8)]) 0x7F01 (fun t => t.v 0xF#4 == 0x00#8)) = true := by decide

/-- B4.5. -/
theorem test_8XY0 :
    after (regs [(0x2#4, 0x3C#8)]) 0x8120 (fun t => t.v 0x1#4 == 0x3C#8) = true := by decide

/-- B4.6. -/
theorem test_8XY1 :
    after (regs [(0x1#4, 0xF0#8), (0x2#4, 0x0F#8), (0xF#4, 0x55#8)]) 0x8121 (fun t =>
      t.v 0x1#4 == 0xFF#8 && t.v 0xF#4 == 0x55#8) = true := by decide

/-- B4.7. -/
theorem test_8XY2 :
    after (regs [(0x1#4, 0xF0#8), (0x2#4, 0x3C#8), (0xF#4, 0x55#8)]) 0x8122 (fun t =>
      t.v 0x1#4 == 0x30#8 && t.v 0xF#4 == 0x55#8) = true := by decide

/-- B4.8. -/
theorem test_8XY3 :
    after (regs [(0x1#4, 0xF0#8), (0x2#4, 0x3C#8), (0xF#4, 0x55#8)]) 0x8123 (fun t =>
      t.v 0x1#4 == 0xCC#8 && t.v 0xF#4 == 0x55#8) = true := by decide

/-- B4.10, B4.12, B4.15. -/
theorem test_8XY4 :
    (after (regs [(0x0#4, 0xFF#8), (0x1#4, 0x01#8)]) 0x8014 (fun t => t.v 0x0#4 == 0x00#8 && t.v 0xF#4 == 0x01#8) &&
      after (regs [(0x0#4, 0x80#8), (0x1#4, 0x7F#8)]) 0x8014 (fun t => t.v 0x0#4 == 0xFF#8 && t.v 0xF#4 == 0x00#8) &&
      after (regs [(0x0#4, 0x01#8), (0xF#4, 0xFF#8)]) 0x80F4 (fun t => t.v 0x0#4 == 0x00#8 && t.v 0xF#4 == 0x01#8)) = true := by decide

/-- B4.14. -/
theorem test_8XY4_flag_wins :
    after (regs [(0xF#4, 0xF0#8), (0x1#4, 0x20#8)]) 0x8F14 (fun t => t.v 0xF#4 == 0x01#8 && t.v 0x1#4 == 0x20#8) = true := by decide

/-- B4.16, B4.17, B4.18. -/
theorem test_8XY5 :
    (after (regs [(0x0#4, 0x05#8), (0x1#4, 0x05#8)]) 0x8015 (fun t => t.v 0x0#4 == 0x00#8 && t.v 0xF#4 == 0x01#8) &&
      after (regs [(0x0#4, 0x00#8), (0x1#4, 0x01#8)]) 0x8015 (fun t => t.v 0x0#4 == 0xFF#8 && t.v 0xF#4 == 0x00#8) &&
      after (regs [(0x0#4, 0x0A#8), (0x1#4, 0x03#8)]) 0x8015 (fun t => t.v 0x0#4 == 0x07#8 && t.v 0xF#4 == 0x01#8)) = true := by decide

/-- B4.19. -/
theorem test_8XY5_flag_wins :
    after (regs [(0xF#4, 0x02#8), (0x1#4, 0x05#8)]) 0x8F15 (fun t => t.v 0xF#4 == 0x00#8) = true := by decide

/-- B4.22, B4.23. -/
theorem test_8XY6 :
    (after (regs [(0x3#4, 0xFF#8), (0x1#4, 0x02#8)]) 0x8316 (fun t => t.v 0x3#4 == 0x7F#8 && t.v 0xF#4 == 0x01#8 && t.v 0x1#4 == 0x02#8) &&
      after (regs [(0x0#4, 0x00#8), (0xF#4, 0x01#8)]) 0x8006 (fun t => t.v 0x0#4 == 0x00#8 && t.v 0xF#4 == 0x00#8)) = true := by decide

/-- B4.24. -/
theorem test_8XY6_flag_wins :
    after (regs [(0xF#4, 0x03#8)]) 0x8F06 (fun t => t.v 0xF#4 == 0x01#8) = true := by decide

/-- B4.25, B4.26, B4.27. -/
theorem test_8XY7 :
    (after (regs [(0x0#4, 0x01#8), (0x1#4, 0x00#8)]) 0x8017 (fun t => t.v 0x0#4 == 0xFF#8 && t.v 0xF#4 == 0x00#8) &&
      after (regs [(0x0#4, 0x03#8), (0x1#4, 0x0A#8)]) 0x8017 (fun t => t.v 0x0#4 == 0x07#8 && t.v 0xF#4 == 0x01#8 && t.v 0x1#4 == 0x0A#8) &&
      after (regs [(0x0#4, 0x09#8), (0x1#4, 0x09#8)]) 0x8017 (fun t => t.v 0x0#4 == 0x00#8 && t.v 0xF#4 == 0x01#8)) = true := by decide

/-- B4.29, B4.30. -/
theorem test_8XYE :
    (after (regs [(0x0#4, 0x7F#8), (0x1#4, 0xFF#8)]) 0x801E (fun t => t.v 0x0#4 == 0xFE#8 && t.v 0xF#4 == 0x00#8 && t.v 0x1#4 == 0xFF#8) &&
      after (regs [(0x0#4, 0x80#8)]) 0x800E (fun t => t.v 0x0#4 == 0x00#8 && t.v 0xF#4 == 0x01#8)) = true := by decide

/-- B4.31. -/
theorem test_8XYE_flag_wins :
    after (regs [(0xF#4, 0x81#8)]) 0x8F0E (fun t => t.v 0xF#4 == 0x01#8) = true := by decide

/-- B5.2. -/
theorem test_ANNN :
    after State.reset 0xAFFF (fun t => t.I == 0x0FFF#16) = true := by decide

/-- B5.4, B5.5. -/
theorem test_FX1E :
    (after (regsI [(0x2#4, 0x01#8)] 0x0FFF#16) 0xF21E (fun t => t.I == 0x1000#16 && t.v 0xF#4 == 0x00#8) &&
      after (regsI [(0x2#4, 0x02#8)] 0xFFFF#16) 0xF21E (fun t => t.I == 0x0001#16)) = true := by decide

/-- B5.7, B5.9. -/
theorem test_FX29 :
    (after (regs [(0x4#4, 0x0F#8)]) 0xF429 (fun t => t.I == 0x004B#16) &&
      after (regs [(0x4#4, 0xFF#8)]) 0xF429 (fun t => t.I == 0x04FB#16)) = true := by decide

/-- B5.15. -/
theorem test_FX33 :
    after (regsI [(0x0#4, 0x7B#8)] 0x0FFD#16) 0xF033 (fun t =>
      Memory.readBytes t.mem 0xFFD 3 == [0x01#8, 0x02#8, 0x03#8] && t.I == 0x0FFD#16) = true := by decide

/-- B5.16, B5.17. -/
theorem test_FX33_faults :
    (after (regsI [(0x0#4, 0x7B#8)] 0x0FFE#16) 0xF033 (fun t =>
      faultIs t .addressOutOfRange 0x1000#16 && t.pc == 0x0202#16 && Memory.read t.mem 0xFFE == 0x00#8) &&
      after (regsI [(0x0#4, 0x7B#8)] 0x004F#16) 0xF033 (fun t =>
        faultIs t .fontWrite 0x004F#16 && Memory.read t.mem 0x04F == 0x80#8)) = true := by decide

/-- B5.19. -/
theorem test_FX55 :
    after (regsI [(0x0#4, 0x11#8), (0x1#4, 0x22#8), (0x2#4, 0x33#8), (0x3#4, 0x44#8)] 0x0300#16) 0xF255 (fun t =>
      Memory.readBytes t.mem 0x300 4 == [0x11#8, 0x22#8, 0x33#8, 0x00#8] && t.I == 0x0303#16) = true := by decide

/-- B5.22, B5.23. -/
theorem test_FX55_faults :
    (after (regsI [(0x0#4, 0x01#8)] 0x0FF1#16) 0xFF55 (fun t =>
      faultIs t .addressOutOfRange 0x1000#16 && t.I == 0x0FF1#16 && Memory.read t.mem 0xFF1 == 0x00#8) &&
      after (regsI [(0x0#4, 0x01#8)] 0x004F#16) 0xF055 (fun t =>
        faultIs t .fontWrite 0x004F#16 && Memory.read t.mem 0x04F == 0x80#8)) = true := by decide

/-- B5.25. -/
theorem test_FX65_reads_the_font :
    after State.reset 0xFF65 (fun t => t.I == 0x0010#16 && t.V.toList == [0xF0#8, 0x90#8, 0x90#8, 0x90#8, 0xF0#8, 0x20#8,
      0x60#8, 0x20#8, 0x20#8, 0x70#8, 0xF0#8, 0x10#8, 0xF0#8, 0x80#8, 0xF0#8, 0xF0#8]) = true := by decide

/-- B5.24 (the register above X stays), B5.27. -/
theorem test_FX65_bounds :
    (after (regsI [(0x3#4, 0x99#8)] 0x0000#16) 0xF265 (fun t => t.v 0x2#4 == 0x90#8 && t.v 0x3#4 == 0x99#8 && t.I == 0x0003#16) &&
      after (regsI [] 0x0FFF#16) 0xF165 (fun t => faultIs t .addressOutOfRange 0x1000#16 && t.I == 0x0FFF#16)) = true := by decide

/-- B6.5: the pixels listed are set; their neighbour and the places a wrapped sprite would reach are not. -/
theorem test_DXYN_wraps_and_clips :
    after ((regsI [(0x0#4, 0x7E#8), (0x1#4, 0x3F#8)] 0x0300#16).storeBytes 0x300 [0xC0#8, 0xFF#8]) 0xD012 (fun t =>
      t.pixel 62 31 && t.pixel 63 31 && !t.pixel 61 31 && !t.pixel 0 31 && !t.pixel 62 0 && !t.pixel 0 0 &&
      t.v 0xF#4 == 0x00#8) = true := by decide

/-- B6.11, with pixel (3, 0) set beforehand as B6.3 has it: it is cleared and VF = 1. -/
theorem test_DXYN_old_VF_is_the_coordinate :
    after { (regsI [(0xF#4, 0x03#8)] 0x0300#16).storeBytes 0x300 [0x80#8] with
        display := blankDisplay.set 0 ((Vector.replicate 64 false).set 3 true) } 0xDF01 (fun t =>
      !t.pixel 3 0 && t.v 0xF#4 == 0x01#8 && t.fbUpdate) = true := by decide

/-- B7.1, B7.2. -/
theorem test_CXNN :
    (after (answering [0xA7#8] [] [] State.reset) 0xC30F (fun t => t.v 0x3#4 == 0x07#8) &&
      after (answering [0xFF#8] [] [] (regs [(0x3#4, 0x09#8)])) 0xC300 (fun t => t.v 0x3#4 == 0x00#8)) = true := by decide

/-- B7.6. -/
theorem test_FX07_reads_before_the_tick :
    after { State.reset with DT := 0x03#8, steps := 7 } 0xF307 (fun t =>
      t.v 0x3#4 == 0x03#8 && t.DT == 0x02#8 && t.steps == 0) = true := by decide

/-- B7.12. -/
theorem test_FX0A :
    after (answering [] [] [some 0xB#4] { State.reset with pc := 0x0230#16 }) 0xF50A (fun t =>
      t.v 0x5#4 == 0x0B#8 && t.pc == 0x0232#16 && t.steps == 1 && t.cycles == .blocking) = true := by decide

/-- B7.14: no step of the core. -/
theorem test_FX0A_waits :
    after (answering [] [] [none] { State.reset with DT := 0x05#8 }) 0xF50A (fun t =>
      t.pc == 0x0200#16 && t.DT == 0x05#8 && t.steps == 0 && t.v 0x5#4 == 0x00#8 && t.cycles == .nothing) = true := by decide

/-- B7.8, B7.9. -/
theorem test_FX15 :
    (after { regs [(0x2#4, 0x03#8)] with steps := 7 } 0xF215 (fun t => t.DT == 0x02#8 && t.steps == 0) &&
      after { State.reset with steps := 7 } 0xF215 (fun t => t.DT == 0x00#8)) = true := by decide

/-- B7.11. -/
theorem test_FX18 :
    after { regs [(0x2#4, 0x01#8)] with steps := 7, DT := 0x01#8 } 0xF218 (fun t =>
      t.ST == 0x00#8 && t.DT == 0x00#8 && t.steps == 0) = true := by decide

/-- B1.18. -/
theorem test_no_tick_before_the_8th :
    after { State.reset with steps := 6, DT := 0x09#8 } 0x6000 (fun t => t.DT == 0x09#8 && t.steps == 7) = true := by decide

/-- B1.14. -/
theorem test_fetch_fault :
    runs (step { State.reset with pc := 0x0FFF#16 }) (fun t =>
      t == { State.reset with pc := 0x0FFF#16, status := .faulted ⟨.addressOutOfRange, 0x0FFF#16⟩ }) = true := by decide

/-- B1.16. -/
theorem test_odd_pc :
    after { State.reset with pc := 0x0201#16 } 0x6107 (fun t => t.v 0x1#4 == 0x07#8 && t.pc == 0x0203#16) = true := by decide

/-- The host's two questions on a table word, with an operand at its top value. -/
theorem test_table_word : decodeTableWord 16 0xDFFF = some (.opDXYN 0xF#4 0xF#4 0xF#4) ∧
    (State.reset.withFetchWord 16 0xDFFF).fetchWord = 0xDFFF#16 := by decide

/-! ### The launch of a run (R201 to R203) -/

/-- A plain launch of the ROM of C6.1: the word in place, pc at it, the next word still the fill. -/
theorem test_plain_launch : (launch [0x00#8, 0xEE#8] Seed.nothing).any (fun s =>
    s.fetchWord == 0x00EE#16 && s.pc == 0x0200#16 && Memory.read s.mem 0x202 == 0x00#8 && s.steps == 0) = true := by decide

/-- A pre-seeded launch as the document's A7 has it (V0 = 0xFF, V1 = 0x01, the word 8014), and a seeded byte over the ROM's. -/
theorem test_seeded_launch : (launch [0x80#8, 0x00#8] { Seed.nothing with
      V := (Vector.replicate 16 none).set 0 (some 0xFF#8) |>.set 1 (some 0x01#8), mem := [(0x201, 0x14#8)] }).any (fun s =>
    runs (step s) (fun t => t.v 0x0#4 == 0x00#8 && t.v 0xF#4 == 0x01#8 && t.pc == 0x0202#16)) = true := by decide

/-- A seed that alters the font table, and one outside memory, launch nothing (R202). -/
theorem test_bad_seeds_refused : launch [] { Seed.nothing with mem := [(0x04F, 0x01#8)] } = none ∧
    launch [] { Seed.nothing with mem := [(0x1000, 0x00#8)] } = none := by decide

/-- The premise of a claim about a run can be met: a plain launch of a ROM is a launch state (R203). -/
theorem witness_launch : ∃ s : State, launch [0x12#8, 0x00#8] Seed.nothing = some s ∧ s.PlainLaunch [0x12#8, 0x00#8] := by
  obtain ⟨s, h⟩ := launch_completes (rom := [0x12#8, 0x00#8]) (d := Seed.nothing) (by decide) (by decide)
  exact ⟨s, h, launch_launches h⟩

/-! ### Witnesses: a state and operands that meet the hypotheses of each statement, for each of its clauses -/

/-- The launch state at the last fetchable address (0xFFE), the word placed there. -/
def lastPlace (w : Nat) : State := ({ State.reset with pc := 0x0FFE#16 } : State).withFetchWord 16 w

/-- IllegalWordFaults, at both ends of the fetchable addresses the font leaves free. -/
theorem witness_illegal_word :
    ((State.reset.withFetchWord 16 0x5121).Fetchable ∧ (State.reset.withFetchWord 16 0x5121).fetchWord = 0x5121#16) ∧
    ((lastPlace 0x0000).Fetchable ∧ (lastPlace 0x0000).fetchWord = 0x0000#16) ∧
    legalWord 0x5121#16 = false ∧ legalWord 0x0000#16 = false :=
  ⟨⟨⟨by decide, by decide⟩, by decide⟩, ⟨⟨by decide, by decide⟩, by decide⟩, by decide, by decide⟩

/-- EncodeOfDecode, and both clauses of DecoderFollowsTheOpcodeMap. -/
theorem witness_decode : decodeWord 0xF165#16 = .ok (.opFX65 0x1#4) ∧ legalWord 0xF165#16 = true ∧
    legalWord 0xF166#16 = false := by decide

/-- WordMatchesAtMostOneRow. -/
theorem witness_row : (⟨"FX65", 0xF0FF#16, 0xF065#16⟩ : OpcodeRow) ∈ opcodeMap ∧
    OpcodeRow.selects ⟨"FX65", 0xF0FF#16, 0xF065#16⟩ 0xF165#16 = true := by decide

/-- RomLoadPlacesBytes, at the two sides of the limit. -/
theorem witness_rom : Memory.wf State.reset.mem = true ∧ (List.replicate 3584 0x01#8).length ≤ 3584 ∧
    3584 < (List.replicate 3585 0x01#8).length := by
  exact ⟨rfl, by rw [List.length_replicate], by rw [List.length_replicate]; decide⟩

/-- StepRunsTheDecodedInstruction and EighthStepTicksTheTimers: the last fetchable address, a step that completes. -/
theorem witness_step : ∃ t, (lastPlace 0x602A).Fetchable ∧ decodeWord (lastPlace 0x602A).fetchWord = .ok (.op6XNN 0x0#4 0x2A#8) ∧
    exec (.op6XNN 0x0#4 0x2A#8) { lastPlace 0x602A with pc := (lastPlace 0x602A).pc + 2#16 } = .next t ∧ t.cycles ≠ .nothing :=
  ⟨_, ⟨by decide, by decide⟩, by decide, rfl, by decide⟩

/-- EighthStepTicksTheTimers: a step that does not complete. -/
theorem witness_uncounted_step : ∃ t, (State.reset.withFetchWord 16 0x00EE).Fetchable ∧
    decodeWord (State.reset.withFetchWord 16 0x00EE).fetchWord = .ok .op00EE ∧
    exec .op00EE { State.reset.withFetchWord 16 0x00EE with pc := (State.reset.withFetchWord 16 0x00EE).pc + 2#16 } = .next t ∧
    t.cycles = .nothing :=
  ⟨_, ⟨by decide, by decide⟩, by decide, rfl, by decide⟩

/-- FetchBeyondMemoryFaults, at the first address that cannot be fetched from. -/
theorem witness_fetch_fault : ({ State.reset with pc := 0x0FFF#16 } : State).status = .running ∧
    0xFFE < ({ State.reset with pc := 0x0FFF#16 } : State).pc.toNat := by decide

/-- A core stopped by a fault. -/
def stoppedCore : State := State.reset.takeFault ⟨.emptyStack, 0x0000#16⟩

/-- FaultedCoreHasNoStep. -/
theorem witness_stopped : stoppedCore.status = .faulted ⟨.emptyStack, 0x0000#16⟩ := rfl

/-- TimersCountDown, its last clause. -/
theorem witness_timer_set : 0 < ({ State.reset with DT := 0x01#8 } : State).DT.toNat := by decide

/-- IdleLoopOnlyCountsTimers, at the reset pc and at the last fetchable address. -/
theorem witness_idle_loop : (State.reset.withFetchWord 16 0x1200).Fetchable ∧ (lastPlace 0x1FFE).Fetchable ∧
    (Memory.read (State.reset.withFetchWord 16 0x1200).mem 0x200).toNat = 0x10 + 0x200 / 256 ∧
    (Memory.read (State.reset.withFetchWord 16 0x1200).mem 0x201).toNat = 0x200 % 256 ∧
    (Memory.read (lastPlace 0x1FFE).mem 0xFFE).toNat = 0x10 + 0xFFE / 256 ∧
    (Memory.read (lastPlace 0x1FFE).mem 0xFFF).toNat = 0xFFE % 256 :=
  ⟨⟨by decide, by decide⟩, ⟨by decide, by decide⟩, by decide, by decide, by decide, by decide⟩

/-- EveryRunningCoreHasANextState, and the running core of FaultsFollowTheFaultTable. -/
theorem witness_running : State.reset.status = .running ∧ ∃ t, exec .op00EE State.reset = .next t := ⟨rfl, _, rfl⟩

/-- FaultsArePrecise: a fault after the pre-increment, and one at the fetch. -/
theorem witness_precise : ∃ u v : State,
    (step (State.reset.withFetchWord 16 0x00EE) = .next u ∧ u.status = .faulted ⟨.emptyStack, 0x0000#16⟩) ∧
    step { State.reset with pc := 0x0FFF#16 } = .next v ∧ v.status = .faulted ⟨.addressOutOfRange, 0x0FFF#16⟩ :=
  ⟨_, _, ⟨rfl, rfl⟩, rfl, rfl⟩

/-- AddedFaultsStopBeforeAnyEffect: each clause at its boundary. -/
theorem witness_added_faults : (stacked 16 0x0206#16).sp.val = 16 ∧ 0x1000 < (regsI [] 0x0FFE#16).I.toNat + 3 ∧
    (regsI [] 0x004F#16).I.toNat < 0x050 ∧ 0x1000 < (regsI [] 0x0FF1#16).I.toNat + ((0xF#4 : RegNo).toNat + 1) ∧
    1 ≤ (0x2#4 : Nibble).toNat ∧ 0x1000 < (regsI [] 0x0FFF#16).I.toNat + (0x2#4 : Nibble).toNat := by decide

/-- StepKeepsInvariant and FontIsNeverOverwritten: a store to the first address above the font table. -/
theorem witness_invariant : ∃ u, ((regsI [(0x0#4, 0x11#8)] 0x0050#16).withFetchWord 16 0xF055).Inv ∧
    step ((regsI [(0x0#4, 0x11#8)] 0x0050#16).withFetchWord 16 0xF055) = .next u ∧ 0x04F < 0x050 :=
  ⟨_, ⟨by decide, by decide⟩, rfl, by decide⟩

/-- StepKeepsPcBounded: the highest pc and the highest return address that the invariant allows. -/
theorem witness_pc_bounded : ∃ u v, ((stacked 1 0x1000#16).withFetchWord 16 0x00EE).PcBounded ∧
    step ((stacked 1 0x1000#16).withFetchWord 16 0x00EE) = .next u ∧
    ({ State.reset with pc := 0x10FE#16 } : State).PcBounded ∧ step { State.reset with pc := 0x10FE#16 } = .next v :=
  ⟨_, _, ⟨by decide, by decide⟩, rfl, ⟨by decide, by decide⟩, rfl⟩

/-- OnlyFourInstructionsAskTheEnvironment. -/
theorem witness_asks_nothing : ∃ t, Instr.asks (.op8XY4 0x0#4 0x1#4) = false ∧
    exec (.op8XY4 0x0#4 0x1#4) State.reset = .next t := ⟨_, rfl, rfl⟩

/-- SoundTimerIsNeverRead: an instruction other than FX18, and FX18. -/
theorem witness_sound_timer : ∃ t u, (exec (.opFX15 0x0#4) State.reset = .next t ∧ ∀ x, Instr.opFX15 0x0#4 ≠ .opFX18 x) ∧
    exec (.opFX18 0x0#4) State.reset = .next u := ⟨_, _, ⟨rfl, by decide⟩, rfl⟩

/-- DeadStackEntriesAreUnobservable: one entry in use, another stack that agrees there and nowhere else. -/
theorem witness_dead_entries : ∃ u,
    (∀ k : Fin 16, k.val < (stacked 1 0x0206#16).sp.val →
      ((Vector.replicate 16 0xBEEF#16).set 0 0x0206#16 : Vector Word 16)[k.val]'k.isLt =
        (stacked 1 0x0206#16).stack[k.val]'k.isLt) ∧
    step ((stacked 1 0x0206#16).withFetchWord 16 0x00EE) = .next u := ⟨_, by decide, rfl⟩

/-- OnlyDrawingInstructionsTouchTheDisplay: a step that changes a pixel, and a clear that reports a drawing. -/
theorem witness_display : ∃ u v,
    (step (State.reset.withFetchWord 16 0xD015) = .next u ∧ u.pixel 0 0 ≠ (State.reset.withFetchWord 16 0xD015).pixel 0 0) ∧
    step (State.reset.withFetchWord 16 0x00E0) = .next v ∧ v.fbUpdate = true ∧ v.status = .running ∧
    decodeWord (State.reset.withFetchWord 16 0x00E0).fetchWord = .ok .op00E0 :=
  ⟨_, _, ⟨rfl, by decide⟩, rfl, by decide, by decide, by decide⟩

/-- OnlyStoresTouchMemory: a step that changes a byte. -/
theorem witness_store_step : ∃ u, step ((regsI [(0x0#4, 0x11#8)] 0x0300#16).withFetchWord 16 0xF055) = .next u ∧
    Memory.read u.mem 0x300 ≠ Memory.read ((regsI [(0x0#4, 0x11#8)] 0x0300#16).withFetchWord 16 0xF055).mem 0x300 :=
  ⟨_, rfl, by decide⟩

/-- OnlyCallAndReturnTouchTheStack: a call, the deepest one. -/
theorem witness_call_step : ∃ u, step ((stacked 15 0x0206#16).withFetchWord 16 0x2ABC) = .next u ∧ u.sp.val = 16 :=
  ⟨_, rfl, by decide⟩

/-- MemoryAccessorsReadWhatWasWritten: each clause at its boundaries. -/
theorem witness_accessors : Memory.wf State.reset.mem = true ∧ 0xFFF < 0x1000 ∧ 0x04F < 0x050 ∧
    (0x050 ≤ 0x050 ∧ 0x050 ≤ 0xFFF) ∧ (0x050 ≤ 0xFFF ∧ 0xFFF ≤ 0xFFF) := by decide

/-- A store of two registers at the highest place they fit. -/
def storing : State := regsI [(0x0#4, 0x6A#8), (0x1#4, 0x77#8)] 0x0FFE#16

/-- The storing state of FX33 at the highest place three bytes fit. -/
def storingDigits : State := regsI [(0x0#4, 0x7B#8)] 0x0FFD#16

/-- StoreIsSeenByLaterFetch: both clauses, the later state fetching at the stored bytes. -/
theorem witness_store_then_fetch : ∃ t u : State,
    (Memory.wf storing.mem = true ∧ 0x050 ≤ storing.I.toNat ∧ 1 ≤ (0x1#4 : RegNo).toNat ∧
      storing.I.toNat + ((0x1#4 : RegNo).toNat + 1) ≤ 0x1000 ∧ exec (.opFX55 0x1#4) storing = .next t ∧
      ({ t with pc := storing.I } : State).mem = t.mem ∧ ({ t with pc := storing.I } : State).pc = storing.I) ∧
    (Memory.wf storingDigits.mem = true ∧ 0x050 ≤ storingDigits.I.toNat ∧ storingDigits.I.toNat + 3 ≤ 0x1000 ∧
      exec (.opFX33 0x0#4) storingDigits = .next u ∧ ({ u with pc := storingDigits.I } : State).mem = u.mem ∧
      ({ u with pc := storingDigits.I } : State).pc = storingDigits.I) :=
  ⟨_, _, ⟨by decide, by decide, by decide, by decide, rfl, rfl, rfl⟩, by decide, by decide, by decide, rfl, rfl, rfl⟩

/-- ReturnPopsTheTopEntry: one entry in use, and none. -/
theorem witness_return : 0 < (stacked 1 0x0206#16).sp.val ∧ State.reset.sp.val = 0 := by decide

/-- CallPushesPcAndJumps: the last free level. -/
theorem witness_call : (stacked 15 0x0206#16).sp.val < 16 := by decide

/-- ReturnUndoesCall: a call on the last free level, and the return right after it. -/
theorem witness_call_and_return : ∃ t : State, exec (.op2NNN 0x300#12) (stacked 15 0x0206#16) = .next t ∧
    (stacked 15 0x0206#16).sp.val < 16 ∧ t.sp = t.sp ∧ t.stack[15] = t.stack[15] := ⟨_, rfl, by decide, rfl, rfl⟩

/-- KeySkipsFollowTheKeypad at the highest key code, and KeyCodeAbove15AdmitsBothOutcomes at the lowest code above it. -/
theorem witness_key_codes : ((regs [(0x3#4, 0x0F#8)]).v 0x3#4).toNat ≤ 15 ∧ 15 < ((regs [(0x3#4, 0x10#8)]).v 0x3#4).toNat := by
  decide

/-- AddSetsCarry, SubtractSetsNoBorrow, ReverseSubtractSetsNoBorrow and ShiftsKeepTheBitShiftedOut: the last X that is not VF. -/
theorem witness_not_vf : (0xE#4 : RegNo) ≠ 0xF#4 := by decide

/-- SubtractThenAddRestores: a borrow. -/
theorem witness_subtract_then_add : ∃ t u, (0x0#4 : RegNo) ≠ 0x1#4 ∧ (0x0#4 : RegNo) ≠ 0xF#4 ∧ (0x1#4 : RegNo) ≠ 0xF#4 ∧
    exec (.op8XY5 0x0#4 0x1#4) (regs [(0x1#4, 0x01#8)]) = .next t ∧ exec (.op8XY4 0x0#4 0x1#4) t = .next u :=
  ⟨_, _, by decide, by decide, by decide, rfl, rfl⟩

/-- FlagIsZeroOrOne: a flag over a VF that was neither. -/
theorem witness_flag : ∃ t, Instr.op8XY6 0x0#4 0x1#4 ∈ [Instr.op8XY4 0x0#4 0x1#4, .op8XY5 0x0#4 0x1#4, .op8XY6 0x0#4 0x1#4,
      .op8XY7 0x0#4 0x1#4, .op8XYE 0x0#4 0x1#4, .opDXYN 0x0#4 0x1#4 0x1#4] ∧
    exec (.op8XY6 0x0#4 0x1#4) (regs [(0xF#4, 0x55#8)]) = .next t ∧ t.cycles ≠ .nothing := ⟨_, by decide, rfl, by decide⟩

/-- BcdStoreWritesThreeDigits: the first and the last place. -/
theorem witness_bcd : Memory.wf (regsI [] 0x0050#16).mem = true ∧ Memory.wf (regsI [] 0x0FFD#16).mem = true ∧
    0x050 ≤ (regsI [] 0x0050#16).I.toNat ∧ (regsI [] 0x0050#16).I.toNat + 2 ≤ 0xFFF ∧
    0x050 ≤ (regsI [] 0x0FFD#16).I.toNat ∧ (regsI [] 0x0FFD#16).I.toNat + 2 ≤ 0xFFF := by decide

/-- StoreRegistersWritesTheRange: all sixteen registers at the first and the last place. -/
theorem witness_store_registers :
    Memory.wf (regsI [] 0x0050#16).mem = true ∧ Memory.wf (regsI [] 0x0FF0#16).mem = true ∧
    0x050 ≤ (regsI [] 0x0050#16).I.toNat ∧ (regsI [] 0x0050#16).I.toNat + (0xF#4 : RegNo).toNat ≤ 0xFFF ∧
    0x050 ≤ (regsI [] 0x0FF0#16).I.toNat ∧ (regsI [] 0x0FF0#16).I.toNat + (0xF#4 : RegNo).toNat ≤ 0xFFF := by decide

/-- LoadRegistersReadsTheRange: the last byte, and the font. -/
theorem witness_load_registers : (regsI [] 0x0FFF#16).I.toNat + (0x0#4 : RegNo).toNat ≤ 0xFFF ∧
    (regsI [] 0x0000#16).I.toNat + (0xF#4 : RegNo).toNat ≤ 0xFFF := by decide

/-- StoreThenLoadRestoresRegisters: the last place for all sixteen registers. -/
theorem witness_store_then_load : Memory.wf (regsI [] 0x0FF0#16).mem = true ∧
    (regsI [] 0x0FF0#16).I.toNat = (0xFF0#12 : Addr12).toNat ∧ 0x050 ≤ (regsI [] 0x0FF0#16).I.toNat ∧
    (regsI [] 0x0FF0#16).I.toNat + (0xF#4 : RegNo).toNat ≤ 0xFFF := by decide

/-- DrawXorsTheSprite and DrawTwiceRestoresTheDisplay: no row (whatever I), and the last byte. -/
theorem witness_draw : ((0x0#4 : Nibble).toNat = 0 ∨ (regsI [] 0xFFFF#16).I.toNat + (0x0#4 : Nibble).toNat ≤ 0x1000) ∧
    ((0x1#4 : Nibble).toNat = 0 ∨ (regsI [] 0x0FFF#16).I.toNat + (0x1#4 : Nibble).toNat ≤ 0x1000) ∧
    (0x0#4 : RegNo) ≠ 0xF#4 ∧ (0x1#4 : RegNo) ≠ 0xF#4 := by decide

/-- DrawTwiceRestoresTheDisplay, its last clause: the launch display is clear under every sprite. -/
theorem witness_clear_display : ∀ px py, State.reset.SpriteOver 0x0#4 0x1#4 0x5#4 px py → State.reset.pixel px py = false := by
  intro px py _
  simp [State.pixel, State.reset]

/-- DrawStaysInItsRectangle: glyph 0 at the origin changes the first pixel. -/
theorem witness_draw_changes : ∃ t, exec (.opDXYN 0x0#4 0x1#4 0x5#4) State.reset = .next t ∧
    t.pixel 0 0 ≠ State.reset.pixel 0 0 := ⟨_, rfl, by decide⟩

/-- RandomByteUnderMask: the least and the greatest byte under a mask. -/
theorem witness_under_mask : 0x00#8 &&& 0x0F#8 = 0x00#8 ∧ 0x0F#8 &&& 0x0F#8 = 0x0F#8 := by decide

/-- TimerMoves, its second half: the three instructions at the last fetchable address. -/
theorem witness_timer_steps : (lastPlace 0xF307).Fetchable ∧ decodeWord (lastPlace 0xF307).fetchWord = .ok (.opFX07 0x3#4) ∧
    (lastPlace 0xF215).Fetchable ∧ decodeWord (lastPlace 0xF215).fetchWord = .ok (.opFX15 0x2#4) ∧
    (lastPlace 0xF218).Fetchable ∧ decodeWord (lastPlace 0xF218).fetchWord = .ok (.opFX18 0x2#4) :=
  ⟨⟨by decide, by decide⟩, by decide, ⟨by decide, by decide⟩, by decide, ⟨by decide, by decide⟩, by decide⟩

/-- KeyWaitStoresThePressedKey: a press of the last key. -/
theorem witness_press : (answering [] [] [some 0xF#4] State.reset).env.nextKey = some 0xF#4 := by decide

/-- A core at FX0A with two instants without a press before the first one. -/
def waiting : State := answering [] [] [none, none, some 0x3#4] (State.reset.withFetchWord 16 0xF50A)

/-- WaitingForAKeyChangesNothing: two instants without a press, and an instruction that does not wait. -/
theorem witness_waiting : ∃ t, waiting.Fetchable ∧ decodeWord waiting.fetchWord = .ok (.opFX0A 0x5#4) ∧
    waiting.env.nextKey = none ∧ waiting.env.presses = List.replicate 2 none ++ [some 0x3#4] ∧
    (∀ x, Instr.op00E0 ≠ .opFX0A x) ∧ exec .op00E0 State.reset = .next t :=
  ⟨_, ⟨by decide, by decide⟩, by decide, by decide, by decide, by decide, rfl⟩

end Sys2Proof.Tests
end

section
/-! SUPPORT. What the shared operations keep, as rules for `simp`: an instruction that may fault changes a part only where
its effect does, and a key wait changes neither memory, stack nor display. -/
namespace Sys2Proof.Machine

@[simp] theorem State.unlessFault_mem (s t : State) (f : Option FaultRecord) :
    (s.unlessFault f t).mem = if f.isSome then s.mem else t.mem := by
  cases f <;> rfl

@[simp] theorem State.unlessFault_pc (s t : State) (f : Option FaultRecord) :
    (s.unlessFault f t).pc = if f.isSome then s.pc else t.pc := by
  cases f <;> rfl

@[simp] theorem State.unlessFault_stack (s t : State) (f : Option FaultRecord) :
    (s.unlessFault f t).stack = if f.isSome then s.stack else t.stack := by
  cases f <;> rfl

@[simp] theorem State.unlessFault_sp (s t : State) (f : Option FaultRecord) :
    (s.unlessFault f t).sp = if f.isSome then s.sp else t.sp := by
  cases f <;> rfl

@[simp] theorem State.unlessFault_display (s t : State) (f : Option FaultRecord) :
    (s.unlessFault f t).display = if f.isSome then s.display else t.display := by
  cases f <;> rfl

@[simp] theorem State.unlessFault_fbUpdate (s t : State) (f : Option FaultRecord) :
    (s.unlessFault f t).fbUpdate = if f.isSome then false else t.fbUpdate := by
  cases f <;> rfl

@[simp] theorem State.keyWait_mem (s : State) (x : RegNo) (o : Option Key) : (s.keyWait x o).mem = s.mem := by
  cases o <;> rfl

@[simp] theorem State.keyWait_stack (s : State) (x : RegNo) (o : Option Key) : (s.keyWait x o).stack = s.stack := by
  cases o <;> rfl

@[simp] theorem State.keyWait_sp (s : State) (x : RegNo) (o : Option Key) : (s.keyWait x o).sp = s.sp := by
  cases o <;> rfl

@[simp] theorem State.keyWait_display (s : State) (x : RegNo) (o : Option Key) :
    (s.keyWait x o).display = s.display := by
  cases o <;> rfl

@[simp] theorem State.keyWait_fbUpdate (s : State) (x : RegNo) (o : Option Key) :
    (s.keyWait x o).fbUpdate = false := by
  cases o <;> rfl

/-- A skip leaves pc alone or adds 2 to it (R120). -/
theorem State.skipIf_pc_cases (s : State) (c : Bool) :
    (s.skipIf c).pc = s.pc ∨ (s.skipIf c).pc = s.pc + 2#16 := by
  cases c
  · exact .inl rfl
  · exact .inr rfl

/-- A literal address is below 0x1000 (R72, R74). -/
theorem zextAddr_toNat_le (nnn : Addr12) : (zextAddr nnn).toNat ≤ 0xFFF := by
  have := nnn.isLt
  simp only [zextAddr, BitVec.toNat_setWidth]
  omega

/-- The target of BNNN, at most 0xFFF + 0xFF (R113). -/
theorem zextAddr_add_zextByte_toNat_le (nnn : Addr12) (b : Byte) : (zextAddr nnn + zextByte b).toNat ≤ 0x10FE := by
  have := zextAddr_toNat_le nnn
  have := b.isLt
  simp only [BitVec.toNat_add, zextByte, BitVec.toNat_setWidth]
  omega

/-- A flag byte is one of the two whole bytes of R22. -/
theorem flagByte_zero_or_one (c : Bool) : flagByte c = 0x00#8 ∨ flagByte c = 0x01#8 := by
  cases c
  · exact .inl rfl
  · exact .inr rfl

/-! The step, in the direction of its inversion `step_cases` (R90, R91, R182). -/

theorem step_of_fetchFault {s : State} (hs : s.status = .running) (hp : s.pc.toNat > 0xFFE) :
    step s = .next (s.takeFault ⟨.addressOutOfRange, s.pc⟩) := by
  rcases s.fetchFault_cases with ⟨-, e⟩ | ⟨h, -⟩
  · simp only [step, hs, e]
  · omega

theorem step_of_illegal {s : State} {r : DecodeReject} (hs : s.status = .running) (hp : s.pc.toNat ≤ 0xFFE)
    (hd : decodeWord s.fetchWord = .error r) :
    step s = .next (s.advancePc.takeFault ⟨.unimplementedOpcode, s.fetchWord⟩) := by
  rcases s.fetchFault_cases with ⟨h, -⟩ | ⟨-, e⟩
  · omega
  · simp only [step, hs, e, hd]

theorem step_of_exec {s t : State} {i : Instr} (hs : s.status = .running) (hp : s.pc.toNat ≤ 0xFFE)
    (hd : decodeWord s.fetchWord = .ok i) (he : exec i s.advancePc = .next t) : step s = .next t.finishStep := by
  rw [step_of_decode hs hp hd, he]

end Sys2Proof.Machine
end

section
/-! SUPPORT. What an instruction can do to one part of the state, said once per part: memory, the stack, pc, the display.
The statements about every step follow from these. -/
namespace Sys2Proof.Machine
variable {i : Instr} {s t : State}

/-- Memory is unchanged, or FX33 or FX55 wrote a list of bytes at I, above the font table and inside the 4096 bytes
(R50, R55, R56). -/
theorem exec_mem_cases (h : exec i s = .next t) :
    t.mem = s.mem ∨
    ((∃ x, i = .opFX33 x ∨ i = .opFX55 x) ∧ 0x050 ≤ s.I.toNat ∧
      ∃ bs : List Byte, s.I.toNat + bs.length ≤ 0x1000 ∧ t.mem = Memory.writeBytes s.mem s.I.toNat bs) := by
  cases i
  case opFX33 x =>
    cases h
    rcases s.storeRangeFault_cases 3 (by omega) with ⟨-, e⟩ | ⟨-, -, e⟩ | ⟨hr, hf, e⟩ <;> rw [e]
    · exact .inl rfl
    · exact .inl rfl
    · exact .inr ⟨⟨x, .inl rfl⟩, hf, bcdDigits (s.v x), by simpa using hr, rfl⟩
  case opFX55 x =>
    cases h
    rcases s.storeRangeFault_cases (x.toNat + 1) (by omega) with ⟨-, e⟩ | ⟨-, -, e⟩ | ⟨hr, hf, e⟩ <;> rw [e]
    · exact .inl rfl
    · exact .inl rfl
    · exact .inr ⟨⟨x, .inr rfl⟩, hf, s.regsUpTo x, by simpa using hr, rfl⟩
  all_goals
    cases h
    exact .inl (by simp)

/-- The stack is unchanged, or 2NNN pushed pc on a stack with room, or 00EE dropped the top entry (R25, R110, R112). -/
theorem exec_stack_cases (h : exec i s = .next t) :
    (t.sp = s.sp ∧ t.stack = s.stack) ∨
    ((∃ nnn, i = .op2NNN nnn) ∧ t.sp.val = s.sp.val + 1 ∧
      ∃ hr : s.sp.val < 16, t.stack = s.stack.set s.sp.val s.pc hr) ∨
    (i = .op00EE ∧ t.sp.val + 1 = s.sp.val ∧ t.stack = s.stack) := by
  cases i
  case op00EE =>
    cases h
    rcases s.popFault_cases with ⟨-, e⟩ | ⟨hp, e⟩ <;> rw [e]
    · exact .inl ⟨rfl, rfl⟩
    · exact .inr (.inr ⟨rfl, Nat.sub_add_cancel hp, rfl⟩)
  case op2NNN nnn =>
    cases h
    rcases s.pushFault_cases s.pc with ⟨-, e⟩ | ⟨hr, e⟩ <;> rw [e]
    · exact .inl ⟨rfl, rfl⟩
    · obtain ⟨hsp, hst⟩ := s.pushStack_spec s.pc hr
      exact .inr (.inl ⟨⟨nnn, rfl⟩, hsp, hr, hst⟩)
  all_goals
    cases h
    exact .inl ⟨by simp, by simp⟩

/-- pc is unchanged, has skipped, waits at the instruction, is the target of a jump, or is the entry that 00EE popped
(R102, R110 to R113, R120). -/
theorem exec_pc_cases (h : exec i s = .next t) :
    t.pc = s.pc ∨ t.pc = s.pc + 2#16 ∨ t.pc = s.pc - 2#16 ∨ t.pc.toNat ≤ 0x10FE ∨
    (0 < s.sp.val ∧ t.pc = s.topOfStack) := by
  cases i
  case op00EE =>
    cases h
    rcases s.popFault_cases with ⟨-, e⟩ | ⟨hp, e⟩ <;> rw [e]
    · exact .inl rfl
    · exact .inr (.inr (.inr (.inr ⟨hp, rfl⟩)))
  case op2NNN nnn =>
    cases h
    have := zextAddr_toNat_le nnn
    rcases s.pushFault_cases s.pc with ⟨-, e⟩ | ⟨-, e⟩ <;> rw [e]
    · exact .inl rfl
    · exact .inr (.inr (.inr (.inl (by simp; omega))))
  case op1NNN nnn =>
    cases h
    have := zextAddr_toNat_le nnn
    exact .inr (.inr (.inr (.inl (by simp; omega))))
  case opBNNN nnn =>
    cases h
    exact .inr (.inr (.inr (.inl (zextAddr_add_zextByte_toNat_le nnn _))))
  case opFX0A x =>
    cases h
    rcases s.keyWait_cases x s.env.nextKey with ⟨k, -, e⟩ | ⟨-, e⟩ <;> rw [e]
    · exact .inl rfl
    · exact .inr (.inr (.inl rfl))
  case op3XNN | op4XNN | op5XY0 | op9XY0 | opEX9E | opEXA1 =>
    cases h
    exact (s.skipIf_pc_cases _).imp_right .inl
  all_goals
    cases h
    exact .inl (by simp)

/-- The display instructions, 00E0 and DXYN (R160, R161). -/
def Instr.Draws (i : Instr) : Prop := i = .op00E0 ∨ ∃ x y n, i = .opDXYN x y n

/-- A display instruction raises `fb_update` or faults; any other leaves the display alone and `fb_update` down (R97). -/
theorem exec_display_cases (h : exec i s = .next t) :
    (Instr.Draws i ∧ (t.fbUpdate = true ∨ ∃ f, t.status = .faulted f)) ∨
    (¬ Instr.Draws i ∧ t.display = s.display ∧ t.fbUpdate = false) := by
  cases i
  case op00E0 =>
    cases h
    exact .inl ⟨.inl rfl, .inl rfl⟩
  case opDXYN x y n =>
    cases h
    refine .inl ⟨.inr ⟨x, y, n, rfl⟩, ?_⟩
    rcases s.readRangeFault_cases n.toNat with ⟨-, e⟩ | ⟨-, e⟩ <;> rw [e]
    · exact .inr ⟨_, rfl⟩
    · exact .inl rfl
  all_goals
    cases h
    exact .inr ⟨by simp [Instr.Draws], by simp, by simp⟩

end Sys2Proof.Machine
end

section
/-! SUPPORT. The reset state and the two invariants (10_state.md R24, R29, R37, R38). -/
namespace Sys2Proof.Machine

/-- Settles O13: the status is looked at before anything else (R29). -/
theorem faultedCoreHasNoStep : Obligations.FaultedCoreHasNoStep := by
  intro s f h
  simp only [step, h]

/-- Settles O7: with no byte listed, memory reads the font below 0x050 and the fill above it. -/
theorem resetState : Obligations.ResetState := by
  refine ⟨rfl, ?_, rfl, rfl, rfl, ?_, rfl, rfl, rfl, ?_, rfl, ?_⟩
  · intro x y
    simp [State.pixel, State.reset]
  · intro r
    simp [State.v, State.reset, Config.initV]
  · intro a h
    exact List.getD_eq_getElem _ _ h
  · intro a h
    exact List.getD_eq_default _ _ h

/-- Settles O8: at reset pc is 0x200 and no return address is in use. -/
theorem resetMeetsInvariants : Obligations.ResetMeetsInvariants :=
  ⟨reset_mem_wf, by decide, fun k h => absurd h (Nat.not_lt_zero k.val)⟩

/-- `Inv` speaks of memory alone. -/
theorem State.Inv.of_mem_eq {s t : State} (hs : s.Inv) (h : t.mem = s.mem) : t.Inv := by
  unfold State.Inv
  rw [h]
  exact hs

/-- An instruction keeps the invariant of R38: the only writes are above the font table and inside the 4096 bytes. -/
theorem exec_keeps_inv {i : Instr} {s t : State} (hs : s.Inv) (h : exec i s = .next t) : t.Inv := by
  rcases exec_mem_cases h with hm | ⟨-, hfont, bs, hlen, hm⟩
  · exact hs.of_mem_eq hm
  · obtain ⟨hwf, hf⟩ := hs
    unfold State.Inv
    rw [hm]
    exact ⟨Memory.writeBytes_wf bs _ hwf hlen, Memory.writeBytes_fontIntact bs _ hf hfont⟩

/-- Settles O21: a fault leaves memory alone, and an instruction keeps the invariant. -/
theorem stepKeepsInvariant : Obligations.StepKeepsInvariant := by
  intro s u hs h
  obtain ⟨-, ⟨-, rfl⟩ | ⟨-, -, rfl⟩ | ⟨-, i, t, -, he, rfl⟩⟩ := step_cases h
  · exact hs.of_mem_eq rfl
  · exact hs.of_mem_eq rfl
  · have ht : t.Inv := exec_keeps_inv (s := s.advancePc) (hs.of_mem_eq rfl) he
    exact ht.of_mem_eq t.finishStep_mem

/-- Every return address in use is at most 0x1000: the part of `PcBounded` about the stack. -/
def State.ReturnsBounded (s : State) : Prop :=
  ∀ k : Fin 16, k.val < s.sp.val → (s.stack[k.val]'k.isLt).toNat ≤ 0x1000

theorem State.pcBounded_iff (s : State) : s.PcBounded ↔ s.pc.toNat ≤ 0x10FE ∧ s.ReturnsBounded := Iff.rfl

theorem State.ReturnsBounded.of_stack_eq {s t : State} (hs : s.ReturnsBounded) (hst : t.stack = s.stack)
    (hsp : t.sp.val ≤ s.sp.val) : t.ReturnsBounded := by
  intro k hk
  simp only [hst]
  exact hs k (by omega)

theorem State.ReturnsBounded.topOfStack_le {s : State} (hs : s.ReturnsBounded) (hp : 0 < s.sp.val) :
    s.topOfStack.toNat ≤ 0x1000 := by
  have := s.sp.isLt
  exact hs ⟨s.sp.val - 1, by omega⟩ (Nat.sub_lt hp Nat.one_pos)

/-- The return addresses stay bounded, since what 2NNN pushes is pc (R112). -/
theorem exec_keeps_returnsBounded {i : Instr} {s t : State} (hpc : s.pc.toNat ≤ 0x1000) (hs : s.ReturnsBounded)
    (h : exec i s = .next t) : t.ReturnsBounded := by
  rcases exec_stack_cases h with ⟨hsp, hst⟩ | ⟨-, hsp, hr, hst⟩ | ⟨-, hsp, hst⟩
  · exact hs.of_stack_eq hst (by rw [hsp])
  · intro k hk
    simp only [hst, Vector.getElem_set]
    split
    · exact hpc
    · exact hs k (by omega)
  · exact hs.of_stack_eq hst (by omega)

/-- From a fetched instruction, with pc = a + 2 (R92), pc stays at most 0x10FE; the greatest value is a BNNN's. -/
theorem exec_pc_le {i : Instr} {s t : State} (hlo : 2 ≤ s.pc.toNat) (hhi : s.pc.toNat ≤ 0x1000)
    (hs : s.ReturnsBounded) (h : exec i s = .next t) : t.pc.toNat ≤ 0x10FE := by
  rcases exec_pc_cases h with e | e | e | e | ⟨hp, e⟩
  · rw [e]; omega
  · rw [e]; bv_omega
  · rw [e]; bv_omega
  · exact e
  · have := hs.topOfStack_le hp
    rw [e]; omega

/-- Settles O23: a step fetches from at most 0xFFE, so every instruction finds pc between 2 and 0x1000. -/
theorem stepKeepsPcBounded : Obligations.StepKeepsPcBounded := by
  intro s u hs h
  obtain ⟨hpc, hst⟩ := s.pcBounded_iff.1 hs
  obtain ⟨-, ⟨-, rfl⟩ | ⟨hp, -, rfl⟩ | ⟨hp, i, t, -, he, rfl⟩⟩ := step_cases h
  · exact ⟨hpc, hst⟩
  · exact ⟨by simp; bv_omega, hst⟩
  · have hnext : s.advancePc.pc.toNat = s.pc.toNat + 2 := by simp; bv_omega
    have hst' : s.advancePc.ReturnsBounded := hst
    have hu : t.ReturnsBounded := exec_keeps_returnsBounded (by omega) hst' he
    refine ⟨?_, hu.of_stack_eq t.finishStep_stack (by simp)⟩
    rw [State.finishStep_pc]
    exact exec_pc_le (by omega) (by omega) hst' he

end Sys2Proof.Machine
end

section
/-! SUPPORT. Who touches the display and the stack (10_state.md R25, R26, R36), what the flag byte can be (R22), and the key
codes above 15 (R33). -/
namespace Sys2Proof.Machine

/-- Settles O27: a fault draws nothing, and `exec_display_cases` says which instructions draw. -/
theorem onlyDrawingInstructionsTouchTheDisplay : Obligations.OnlyDrawingInstructionsTouchTheDisplay := by
  intro s u h
  obtain ⟨-, ⟨-, rfl⟩ | ⟨-, ⟨r, hd⟩, rfl⟩ | ⟨-, i, t, hd, he, rfl⟩⟩ := step_cases h
  · simp
  · simp
  · simp only [hd, Except.ok.injEq, State.pixel_finishStep, State.finishStep_fbUpdate, State.finishStep_status]
    rcases exec_display_cases he with ⟨hi, hfb⟩ | ⟨hi, hdisp, hfb⟩
    · refine ⟨fun _ => hi, fun hrun _ => ?_⟩
      rcases hfb with hfb | ⟨f, hf⟩
      · exact hfb
      · simp [hf] at hrun
    · refine ⟨fun hc => ?_, fun _ hdraw => absurd hdraw hi⟩
      simp [State.pixel, hdisp, hfb] at hc

/-- Settles O29: a fault leaves the stack alone, and `exec_stack_cases` says what an instruction does to it. -/
theorem onlyCallAndReturnTouchTheStack : Obligations.OnlyCallAndReturnTouchTheStack := by
  intro s u h
  obtain ⟨-, ⟨-, rfl⟩ | ⟨-, -, rfl⟩ | ⟨-, i, t, hd, he, rfl⟩⟩ := step_cases h
  · exact .inl ⟨rfl, rfl⟩
  · exact .inl ⟨rfl, rfl⟩
  · simp only [hd, Except.ok.injEq, State.finishStep_sp, State.finishStep_stack]
    rcases exec_stack_cases he with hsame | ⟨hi, hsp, -⟩ | ⟨hi, hsp, hst⟩
    · exact .inl hsame
    · exact .inr (.inl ⟨hsp, hi⟩)
    · exact .inr (.inr ⟨hsp, hst, hi⟩)

/-- Written last, a flag byte is what VF holds, for X = 15 too (R131, D7). -/
theorem State.setResultAndFlag_zero_or_one (s : State) (x : RegNo) (result : Byte) (c : Bool) :
    (s.setResultAndFlag x result (flagByte c)).v 0xF#4 = 0x00#8 ∨
    (s.setResultAndFlag x result (flagByte c)).v 0xF#4 = 0x01#8 := by
  simp only [State.v_setResultAndFlag, if_true]
  exact flagByte_zero_or_one c

/-- Settles O46: each of the six writes a flag byte to VF last, or faults and reports nothing. -/
theorem flagIsZeroOrOne : Obligations.FlagIsZeroOrOne := by
  intro s t x y n i hi h hc
  simp only [List.mem_cons, List.not_mem_nil, or_false] at hi
  rcases hi with rfl | rfl | rfl | rfl | rfl | rfl <;> cases h
  iterate 5
    · exact s.setResultAndFlag_zero_or_one x _ _
  · rcases s.readRangeFault_cases n.toNat with ⟨-, e⟩ | ⟨-, e⟩ <;> rw [e] at hc ⊢
    · exact absurd rfl hc
    · simp only [State.unlessFault_none, State.v_completedDrawing, State.v_setV, if_true]
      exact flagByte_zero_or_one _

/-- An environment whose next sample of the keypad answers codes above 15 with `b` (R33, D11). -/
def Env.outsideAnswers (b : Bool) : Env := { Env.atReset with keypads := [{ keyDown := 0#16, outside := b }] }

theorem Env.keyDown_outsideAnswers (b : Bool) {k : Byte} (hk : 15 < k.toNat) :
    (Env.outsideAnswers b).keyDown k = b := by
  unfold Env.keyDown
  rw [if_neg (by omega)]
  rfl

/-- Settles O38: the free answer is the wanted outcome for EX9E and its opposite for EXA1. -/
theorem keyCodeAbove15AdmitsBothOutcomes : Obligations.KeyCodeAbove15AdmitsBothOutcomes := by
  intro s x skip hk
  refine ⟨⟨Env.outsideAnswers skip, _, rfl, ?_⟩, ⟨Env.outsideAnswers !skip, _, rfl, ?_⟩⟩
  · simp [Env.keyDown_outsideAnswers _ hk]
  · simp [Env.keyDown_outsideAnswers _ hk]

end Sys2Proof.Machine
end

section
/-! SUPPORT. What no instruction reads: the sound timer (10_state.md R27) and the stack entries above the top (R25). Each
operation commutes with a change of the part it does not read. -/
namespace Sys2Proof.Machine

theorem State.unlessFault_setST (s t : State) (f : Option FaultRecord) (b : Byte) :
    (s.setST b).unlessFault f (t.setST b) = (s.unlessFault f t).setST b := by
  cases f <;> rfl

theorem State.keyWait_setST (s : State) (x : RegNo) (o : Option Key) (b : Byte) :
    (s.setST b).keyWait x o = (s.keyWait x o).setST b := by
  cases o <;> rfl

/-- Every instruction but FX18 commutes with a change of ST (R27). -/
theorem exec_setST {i : Instr} {s t : State} (b : Byte) (hi : ∀ x, i ≠ .opFX18 x) (h : exec i s = .next t) :
    exec i (s.setST b) = .next (t.setST b) := by
  cases i
  case opFX18 x => exact absurd rfl (hi x)
  case op2NNN nnn =>
    cases h
    show Host.Outcome.next ((s.setST b).unlessFault (s.pushFault s.pc)
      (((s.setST b).pushStack s.pc).setPc (zextAddr nnn)).completed) = _
    rw [State.pushStack_setST, ← State.unlessFault_setST]
    rfl
  case op00EE | opDXYN | opFX33 | opFX55 | opFX65 =>
    cases h
    rw [← State.unlessFault_setST]
    rfl
  case opFX0A x =>
    cases h
    rw [← State.keyWait_setST]
    rfl
  case op3XNN | op4XNN | op5XY0 | op9XY0 =>
    cases h
    exact congrArg (fun p : State => Host.Outcome.next p.completed) (s.skipIf_setST _ b)
  case opEX9E | opEXA1 =>
    cases h
    exact congrArg (fun p : State => Host.Outcome.next (p.setEnv s.env.afterKeyDown).completed) (s.skipIf_setST _ b)
  all_goals
    cases h
    rfl

/-- Settles O25: what FX18 leaves in ST does not come from the old ST. -/
theorem soundTimerIsNeverRead : Obligations.SoundTimerIsNeverRead := by
  intro i s t b h
  refine ⟨fun hi => exec_setST b hi h, ?_⟩
  rintro x rfl
  exact h

/-- The state with other stack entries, as many in use. -/
def State.withStack (s : State) (other : Vector Word 16) : State := { s with stack := other }

/-- `other` agrees with the stack of `s` on the entries in use. -/
def State.AgreesBelowTop (s : State) (other : Vector Word 16) : Prop :=
  ∀ k : Fin 16, k.val < s.sp.val → other[k.val]'k.isLt = s.stack[k.val]'k.isLt

theorem State.unlessFault_withStack (s t : State) (f : Option FaultRecord) (other : Vector Word 16) :
    (s.withStack other).unlessFault f (t.withStack other) = (s.unlessFault f t).withStack other := by
  cases f <;> rfl

theorem State.keyWait_withStack (s : State) (x : RegNo) (o : Option Key) (other : Vector Word 16) :
    (s.withStack other).keyWait x o = (s.keyWait x o).withStack other := by
  cases o <;> rfl

theorem State.skipIf_withStack (s : State) (c : Bool) (other : Vector Word 16) :
    (s.withStack other).skipIf c = (s.skipIf c).withStack other := by
  cases c <;> rfl

theorem State.countStep_withStack (s : State) (other : Vector Word 16) :
    (s.withStack other).countStep = s.countStep.withStack other := by
  by_cases h : s.steps.val + 1 < 8 <;> simp [State.countStep, State.withStack, h]

theorem State.finishStep_withStack (s : State) (other : Vector Word 16) :
    (s.withStack other).finishStep = s.finishStep.withStack other := by
  rcases s.finishStep_cases with ⟨hc, e⟩ | ⟨hc, e⟩ <;> rw [e]
  · exact (State.finishStep_cases (s.withStack other)).elim And.right fun h => absurd hc h.1
  · exact (State.finishStep_cases (s.withStack other)).elim (fun h => absurd h.1 hc)
      fun h => h.2.trans (s.countStep_withStack other)

theorem State.AgreesBelowTop.of_stack_eq {s t : State} {other : Vector Word 16} (ha : s.AgreesBelowTop other)
    (hst : t.stack = s.stack) (hsp : t.sp.val ≤ s.sp.val) : t.AgreesBelowTop other := by
  intro k hk
  simp only [hst]
  exact ha k (by omega)

theorem State.AgreesBelowTop.topOfStack_eq {s : State} {other : Vector Word 16} (ha : s.AgreesBelowTop other)
    (hp : 0 < s.sp.val) : (s.withStack other).topOfStack = s.topOfStack := by
  have := s.sp.isLt
  exact ha ⟨s.sp.val - 1, by omega⟩ (Nat.sub_lt hp Nat.one_pos)

/-- Every instruction but 00EE and 2NNN commutes with a change of the whole stack. -/
theorem exec_withStack {i : Instr} {s t : State} (other : Vector Word 16) (hret : i ≠ .op00EE)
    (hcall : ∀ nnn, i ≠ .op2NNN nnn) (h : exec i s = .next t) :
    exec i (s.withStack other) = .next (t.withStack other) := by
  cases i
  case op00EE => exact absurd rfl hret
  case op2NNN nnn => exact absurd rfl (hcall nnn)
  case opDXYN | opFX33 | opFX55 | opFX65 =>
    cases h
    rw [← State.unlessFault_withStack]
    rfl
  case opFX0A x =>
    cases h
    rw [← State.keyWait_withStack]
    rfl
  case op3XNN | op4XNN | op5XY0 | op9XY0 =>
    cases h
    exact congrArg (fun p : State => Host.Outcome.next p.completed) (s.skipIf_withStack _ other)
  case opEX9E | opEXA1 =>
    cases h
    exact congrArg (fun p : State => Host.Outcome.next (p.setEnv s.env.afterKeyDown).completed)
      (s.skipIf_withStack _ other)
  all_goals
    cases h
    rfl

/-- 00EE answers the same: it reads the top entry alone, which is in use (R110). -/
theorem exec_op00EE_withStack {s t : State} {other : Vector Word 16} (ha : s.AgreesBelowTop other)
    (h : exec .op00EE s = .next t) : exec .op00EE (s.withStack other) = .next (t.withStack other) := by
  cases h
  show Host.Outcome.next ((s.withStack other).unlessFault s.popFault
    ((s.withStack other).dropTop.setPc (s.withStack other).topOfStack).completed) = _
  rcases s.popFault_cases with ⟨-, e⟩ | ⟨hp, e⟩ <;> rw [e]
  · rfl
  · rw [ha.topOfStack_eq hp]
    rfl

/-- 2NNN writes the entry above the top in both stacks (R112). -/
theorem exec_op2NNN_withStack {s t : State} {other : Vector Word 16} (nnn : Addr12) (ha : s.AgreesBelowTop other)
    (h : exec (.op2NNN nnn) s = .next t) :
    ∃ other', exec (.op2NNN nnn) (s.withStack other) = .next (t.withStack other') ∧ t.AgreesBelowTop other' := by
  cases h
  show ∃ other', Host.Outcome.next ((s.withStack other).unlessFault (s.pushFault s.pc)
    (((s.withStack other).pushStack s.pc).setPc (zextAddr nnn)).completed) = _ ∧ _
  rcases s.pushFault_cases s.pc with ⟨-, e⟩ | ⟨hr, e⟩ <;> rw [e]
  · exact ⟨other, rfl, ha⟩
  · refine ⟨other.set s.sp.val s.pc hr, ?_, ?_⟩
    · simp [State.pushStack, State.withStack, hr, State.setPc, State.completed]
    · obtain ⟨hsp, hst⟩ := s.pushStack_spec s.pc hr
      intro k hk
      simp only [State.unlessFault_none, State.completed_sp, State.setPc_sp, hsp] at hk
      simp only [State.unlessFault_none, State.completed_stack, State.setPc_stack, hst, Vector.getElem_set]
      split
      · rfl
      · exact ha k (by omega)

/-- Two states that differ only above the top of the stack execute alike and differ only there afterwards (R25). -/
theorem exec_agreesBelowTop {i : Instr} {s t : State} {other : Vector Word 16} (ha : s.AgreesBelowTop other)
    (h : exec i s = .next t) :
    ∃ other', exec i (s.withStack other) = .next (t.withStack other') ∧ t.AgreesBelowTop other' := by
  by_cases hcall : ∃ nnn, i = .op2NNN nnn
  · obtain ⟨nnn, rfl⟩ := hcall
    exact exec_op2NNN_withStack nnn ha h
  have hexec : exec i (s.withStack other) = .next (t.withStack other) := by
    by_cases hret : i = .op00EE
    · subst hret
      exact exec_op00EE_withStack ha h
    · exact exec_withStack other hret (fun nnn e => hcall ⟨nnn, e⟩) h
  refine ⟨other, hexec, ?_⟩
  rcases exec_stack_cases h with ⟨hsp, hst⟩ | ⟨hi, -⟩ | ⟨-, hsp, hst⟩
  · exact ha.of_stack_eq hst (by rw [hsp])
  · exact absurd hi hcall
  · exact ha.of_stack_eq hst (by omega)

/-- Settles O26: neither the fetch nor the end of the step reads an entry, and no instruction reads one above the top. -/
theorem deadStackEntriesAreUnobservable : Obligations.DeadStackEntriesAreUnobservable := by
  intro s u other ha h
  have ha : s.AgreesBelowTop other := ha
  show ∃ u', step (s.withStack other) = .next u' ∧ u' = u.withStack u'.stack ∧ u.AgreesBelowTop u'.stack
  obtain ⟨hs, ⟨hp, rfl⟩ | ⟨hp, ⟨r, hd⟩, rfl⟩ | ⟨hp, i, t, hd, he, rfl⟩⟩ := step_cases h
  · exact ⟨_, step_of_fetchFault (s := s.withStack other) hs hp, rfl, ha⟩
  · exact ⟨_, step_of_illegal (s := s.withStack other) hs hp hd, rfl, ha⟩
  · obtain ⟨other', he', ht⟩ := exec_agreesBelowTop (s := s.advancePc) ha he
    have hstep := step_of_exec (s := s.withStack other) hs hp hd he'
    rw [State.finishStep_withStack] at hstep
    exact ⟨_, hstep, rfl, ht.of_stack_eq t.finishStep_stack (by simp)⟩

end Sys2Proof.Machine
end

section
/-! SUPPORT. Main memory at the level of the step and of the host's accessors (20_memory.md R50 to R56), and the fetch of
stored bytes (R65). -/
namespace Sys2Proof.Machine

/-- A step leaves memory unchanged, or fetched an FX33 or FX55 that wrote a list of bytes at I, above the font table: neither
a fault nor the end of the step writes memory (R50, R56, R94, R185). -/
theorem step_mem_cases {s u : State} (h : step s = .next u) :
    u.mem = s.mem ∨
    ((∃ x, decodeWord s.fetchWord = .ok (.opFX33 x) ∨ decodeWord s.fetchWord = .ok (.opFX55 x)) ∧
      0x050 ≤ s.I.toNat ∧ ∃ bs : List Byte, u.mem = Memory.writeBytes s.mem s.I.toNat bs) := by
  obtain ⟨-, ⟨-, rfl⟩ | ⟨-, -, rfl⟩ | ⟨-, i, t, hd, he, rfl⟩⟩ := step_cases h
  · exact .inl rfl
  · exact .inl rfl
  · simp only [hd, Except.ok.injEq, State.finishStep_mem]
    rcases exec_mem_cases he with hm | ⟨hi, hfont, bs, -, hm⟩
    · exact .inl hm
    · exact .inr ⟨hi, hfont, bs, hm⟩

/-- Settles O22: what a step writes lies at I or above, and I is not in the font table then. -/
theorem fontIsNeverOverwritten : Obligations.FontIsNeverOverwritten := by
  intro s u a ha h
  rcases step_mem_cases h with hm | ⟨-, hfont, bs, hm⟩
  · rw [hm]
  · rw [hm, Memory.read_writeBytes_outside bs _ (by omega)]

/-- Settles O28: a byte that changed was written, and only FX33 and FX55 write. -/
theorem onlyStoresTouchMemory : Obligations.OnlyStoresTouchMemory := by
  intro s u a h hne
  rcases step_mem_cases h with hm | ⟨hstore, -⟩
  · exact absurd (by rw [hm]) hne
  · exact hstore

/-! The accessors, an equation per case (R53, R54). -/

theorem State.memRead_above (s : State) {a : Nat} (h : 0xFFF < a) :
    s.memRead a = .error ⟨.addressOutOfRange, BitVec.ofNat 16 (a % 65536)⟩ := if_pos h

theorem State.memRead_inside (s : State) {a : Nat} (h : a ≤ 0xFFF) : s.memRead a = .ok (Memory.read s.mem a) :=
  if_neg (by omega)

/-- Reading the same byte, the accessor answers the same, a fault included. -/
theorem State.memRead_congr {s t : State} {a : Nat} (h : Memory.read t.mem a = Memory.read s.mem a) :
    t.memRead a = s.memRead a := by
  unfold State.memRead
  rw [h]

theorem State.memWrite_above (s : State) {a : Nat} (b : Byte) (h : 0xFFF < a) :
    s.memWrite a b = .error ⟨.addressOutOfRange, BitVec.ofNat 16 (a % 65536)⟩ := if_pos h

theorem State.memWrite_font (s : State) {a : Nat} (b : Byte) (h : a < 0x050) :
    s.memWrite a b = .error ⟨.fontWrite, BitVec.ofNat 16 a⟩ := by
  rw [State.memWrite, if_neg (by omega), if_pos h]

theorem State.memWrite_inside (s : State) {a : Nat} (b : Byte) (hlo : 0x050 ≤ a) (hhi : a ≤ 0xFFF) :
    s.memWrite a b = .ok (s.storeBytes a [b]) := by
  rw [State.memWrite, if_neg (by omega), if_neg (by omega)]

/-- A store changes no part of the state but memory (R50). -/
theorem State.storeBytes_frame (s : State) (a : Nat) (bs : List Byte) : FrameExcept [.mem] s (s.storeBytes a bs) := by
  simp [frameExcept_iff]

/-- Settles O30: the write is a store of one byte, which `Memory.read_write_same` and `Memory.read_write_ne` read back. -/
theorem memoryAccessorsReadWhatWasWritten : Obligations.MemoryAccessorsReadWhatWasWritten := by
  intro s a b hwf
  refine ⟨fun h => ⟨s.memRead_above h, s.memWrite_above b h⟩, fun h => s.memWrite_font b h, fun hlo hhi => ?_⟩
  have hsame : Memory.read (s.storeBytes a [b]).mem a = b := Memory.read_write_same s.mem a b hwf
  refine ⟨s.storeBytes a [b], s.memWrite_inside b hlo hhi, ?_, fun c hc => ?_, ?_, s.storeBytes_frame a [b]⟩
  · rw [State.memRead_inside _ hhi, hsame]
  · exact State.memRead_congr (Memory.read_write_ne s.mem b hc)
  · exact Memory.write_wf s.mem b hwf (Nat.lt_succ_of_le hhi)

/-- A fetch from where a list of bytes was written reads its first two, high byte first (R65, R71). -/
theorem State.fetchWord_of_writeBytes {u : State} {m : Memory} {a : Nat} {bs : List Byte} (hwf : Memory.wf m = true)
    (ha : a + bs.length ≤ Config.memSize) (hlen : 2 ≤ bs.length) (hm : u.mem = Memory.writeBytes m a bs)
    (hpc : u.pc.toNat = a) : u.fetchWord = bs[0] ++ bs[1] := by
  have h0 := Memory.read_writeBytes_inside bs m (i := 0) hwf ha (by omega)
  have h1 := Memory.read_writeBytes_inside bs m (i := 1) hwf ha (by omega)
  rw [State.fetchWord, wordOfBytes, hm, hpc, ← h0, ← h1]
  rfl

/-- A store that fits above the font table does not fault (R55, R56). -/
theorem State.storeRangeFault_eq_none (s : State) {n : Nat} (hn : 1 ≤ n) (hlo : 0x050 ≤ s.I.toNat)
    (hhi : s.I.toNat + n ≤ 0x1000) : s.storeRangeFault n = none := by
  rcases s.storeRangeFault_cases n hn with ⟨_, -⟩ | ⟨-, _, -⟩ | ⟨-, -, e⟩
  · omega
  · omega
  · exact e

/-- An FX55 that fits above the font table writes V[0] to V[X] at I (R154). -/
theorem exec_opFX55_mem {s t : State} {x : RegNo} (hlo : 0x050 ≤ s.I.toNat) (hhi : s.I.toNat + (x.toNat + 1) ≤ 0x1000)
    (h : exec (.opFX55 x) s = .next t) : t.mem = Memory.writeBytes s.mem s.I.toNat (s.regsUpTo x) := by
  cases h
  rw [s.storeRangeFault_eq_none (by omega) hlo hhi]
  rfl

/-- An FX33 that fits above the font table writes the three digits of V[X] at I (R153). -/
theorem exec_opFX33_mem {s t : State} {x : RegNo} (hlo : 0x050 ≤ s.I.toNat) (hhi : s.I.toNat + 3 ≤ 0x1000)
    (h : exec (.opFX33 x) s = .next t) : t.mem = Memory.writeBytes s.mem s.I.toNat (bcdDigits (s.v x)) := by
  cases h
  rw [s.storeRangeFault_eq_none (by omega) hlo hhi]
  rfl

/-- Settles O31: the fetch reads the first two bytes of the register list, or of the digits. -/
theorem storeIsSeenByLaterFetch : Obligations.StoreIsSeenByLaterFetch := by
  intro s t u x hwf hlo hm hpc
  have hI : u.pc.toNat = s.I.toNat := congrArg BitVec.toNat hpc
  refine ⟨fun hx hhi h => ?_, fun hhi h => ?_⟩
  · have hbytes := hm.trans (exec_opFX55_mem hlo hhi h)
    rw [State.fetchWord_of_writeBytes hwf (by simpa using hhi) (by simpa using hx) hbytes hI]
    exact congrArg₂ (· ++ ·) (s.regsUpTo_getElem x 0x0#4 (Nat.zero_le _)) (s.regsUpTo_getElem x 0x1#4 hx)
  · have hbytes := hm.trans (exec_opFX33_mem hlo hhi h)
    rw [State.fetchWord_of_writeBytes hwf (by simpa using hhi) (by simp) hbytes hI]
    rfl

/-- Settles O12: `takeFault` writes the status and clears the outputs, and nothing else (R91, R185). -/
theorem fetchBeyondMemoryFaults : Obligations.FetchBeyondMemoryFaults :=
  fun _ hs hp => step_of_fetchFault hs hp

end Sys2Proof.Machine
end

section
/-! SUPPORT. Decoder, encoder and opcode map agree (30_encoding.md R70 to R77): decode of encode, encode of decode, and each
legal word as the word of an instruction of the row that matches it; and the fetch, high byte first (R71). -/
namespace Sys2Proof
open Laws

/-! Decode of encode -/

/-- Settles O2: the fields of each format are its operands, and nibble1 with the sub-opcode selects the constructor. -/
theorem decodeOfEncode : Obligations.DecodeOfEncode := by
  intro i
  cases i
  case op00E0 | op00EE => rfl
  case op1NNN | op2NNN | opANNN | opBNNN => simp [encode, decodeWord]
  case op3XNN | op4XNN | op6XNN | op7XNN | opCXNN => simp [encode, decodeWord]
  case opDXYN => simp [encode, decodeWord]
  case op5XY0 | op9XY0 => simp [encode, decodeWord, decodeZeroNibble]
  case op8XY0 | op8XY1 | op8XY2 | op8XY3 | op8XY4 | op8XY5 | op8XY6 | op8XY7 | op8XYE =>
    simp [encode, decodeWord, decodeFamily8]
  case opEX9E | opEXA1 => simp [encode, decodeWord, decodeFamilyE]
  case opFX07 | opFX0A | opFX15 | opFX18 | opFX1E | opFX29 | opFX33 | opFX55 | opFX65 =>
    simp [encode, decodeWord, decodeFamilyF]

/-! Encode of decode: a word is its format on its own fields, so its fixed fields alone decide whether an instruction's word
is the word itself. -/

section
variable {w : Word} {op : BitVec 4}

theorem formatNNN_of_opField (hop : opField w = op) : formatNNN op (nnnField w) = w := by
  rw [← hop, formatNNN_fields]

/-- Formats `XNN` and `X` (R73): `nn` is the word's own low byte, or a sub-opcode. -/
theorem formatXNN_of_fields {nn : Byte} (hop : opField w = op) (hnn : nnField w = nn) :
    formatXNN op (xField w) nn = w := by
  rw [← hop, ← hnn, formatXNN_fields]

/-- Formats `XYN` and `XY` (R73): `n` is the word's own last nibble, or a sub-opcode. -/
theorem formatXYN_of_fields {n : BitVec 4} (hop : opField w = op) (hn : nField w = n) :
    formatXYN op (xField w) (yField w) n = w := by
  rw [← hop, ← hn, formatXYN_fields]

end

/-- The answers a decoder may give to `w` if it is to agree with the encoder: an instruction whose word is `w`, or the
rejection that carries `w` (R77). -/
inductive AnswersFor (w : Word) : Except DecodeReject Instr → Prop
  | accept {i : Instr} (h : encode i = w) : AnswersFor w (.ok i)
  | reject : AnswersFor w (.error (.unimplementedOpcode w))

theorem decodeFamily0_answers (w : Word) : AnswersFor w (decodeFamily0 w) := by
  unfold decodeFamily0
  split_ifs with hE0 hEE
  · exact .accept hE0.symm
  · exact .accept hEE.symm
  · exact .reject

theorem decodeZeroNibble_answers {w : Word} {i : Instr} (h : nField w = 0x0#4 → encode i = w) :
    AnswersFor w (decodeZeroNibble w i) := by
  unfold decodeZeroNibble
  split_ifs with hn
  · exact .accept (h hn)
  · exact .reject

theorem decodeFamily8_answers {w : Word} (hop : opField w = 0x8#4) : AnswersFor w (decodeFamily8 w) := by
  unfold decodeFamily8
  split
  case h_10 => exact .reject
  all_goals exact .accept (formatXYN_of_fields hop (BitVec.eq_of_toNat_eq ‹_›))

theorem decodeFamilyE_answers {w : Word} (hop : opField w = 0xE#4) : AnswersFor w (decodeFamilyE w) := by
  unfold decodeFamilyE
  split_ifs with h9E hA1
  · exact .accept (formatXNN_of_fields hop h9E)
  · exact .accept (formatXNN_of_fields hop hA1)
  · exact .reject

theorem decodeFamilyF_answers {w : Word} (hop : opField w = 0xF#4) : AnswersFor w (decodeFamilyF w) := by
  unfold decodeFamilyF
  split_ifs
  case neg => exact .reject
  all_goals exact .accept (formatXNN_of_fields hop ‹_›)

/-- Family F is what the dispatch is left with above nibble1 0xE (R75). -/
theorem opField_eq_F {w : Word} (h : 0xE < (opField w).toNat) : opField w = 0xF#4 := by
  have := (opField w).isLt
  apply BitVec.eq_of_toNat_eq
  change (opField w).toNat = 0xF
  omega

/-- The decoder as a whole, family by family; case `h_k` is the family of nibble1 k - 1. -/
theorem decodeWord_answers (w : Word) : AnswersFor w (decodeWord w) := by
  unfold decodeWord
  split
  case h_1 => exact decodeFamily0_answers w
  case h_2 | h_3 | h_11 | h_12 => exact .accept (formatNNN_of_opField (BitVec.eq_of_toNat_eq ‹_›))
  case h_4 | h_5 | h_7 | h_8 | h_13 => exact .accept (formatXNN_of_fields (BitVec.eq_of_toNat_eq ‹_›) rfl)
  case h_6 | h_10 => exact decodeZeroNibble_answers (formatXYN_of_fields (BitVec.eq_of_toNat_eq ‹_›))
  case h_9 => exact decodeFamily8_answers (BitVec.eq_of_toNat_eq ‹_›)
  case h_14 => exact .accept (formatXYN_of_fields (BitVec.eq_of_toNat_eq ‹_›) rfl)
  case h_15 => exact decodeFamilyE_answers (BitVec.eq_of_toNat_eq ‹_›)
  case h_16 => exact decodeFamilyF_answers (opField_eq_F (by simp only [imp_false] at *; omega))

/-- Settles O3: the decoder only accepts a word with an instruction whose word it is. -/
theorem encodeOfDecode : Obligations.EncodeOfDecode := by
  intro w i h
  have hw := decodeWord_answers w
  rw [h] at hw
  cases hw with
  | accept he => exact he

/-! No word matches two rows: rows that differ in a digit both fix have no word in common, and in a well-formed map any two
rows differ so. -/

theorem OpcodeRow.bits_of_selects {r : OpcodeRow} {w : Word} (h : r.selects w = true) : w &&& r.mask = r.bits :=
  eq_of_beq h

theorem OpcodeRow.not_selects_of_disjoint {r q : OpcodeRow} {w : Word} (hd : r.disjoint q = true)
    (hr : r.selects w = true) : ¬ q.selects w = true := by
  intro hq
  have hbits : r.bits &&& q.mask = q.bits &&& r.mask := by
    rw [← bits_of_selects hr, ← bits_of_selects hq, BitVec.and_assoc, BitVec.and_assoc, BitVec.and_comm r.mask]
  simp [OpcodeRow.disjoint, hbits] at hd

theorem row_unique_of_wellFormedMap {map : List OpcodeRow} (hwf : wellFormedMap map = true) {w : Word} {r q : OpcodeRow}
    (hr : r ∈ map) (hq : q ∈ map) (hrw : r.selects w = true) (hqw : q.selects w = true) : r = q := by
  induction map with
  | nil => cases hr
  | cons p rest ih =>
    simp only [wellFormedMap, Bool.and_eq_true, List.all_eq_true] at hwf
    obtain ⟨⟨-, hd⟩, hrest⟩ := hwf
    rcases List.mem_cons.1 hr with rfl | hr' <;> rcases List.mem_cons.1 hq with rfl | hq'
    · rfl
    · exact absurd hqw (OpcodeRow.not_selects_of_disjoint (hd q hq') hrw)
    · exact absurd hrw (OpcodeRow.not_selects_of_disjoint (hd r hr') hqw)
    · exact ih hrest hr' hq'

/-- Settles O4: the map of R76 is well formed. -/
theorem wordMatchesAtMostOneRow : Obligations.WordMatchesAtMostOneRow := by
  have hwf : wellFormedMap opcodeMap = true := by decide
  intro w r q
  exact row_unique_of_wellFormedMap hwf

/-! The decoder accepts exactly the legal words: the word of every instruction is legal, and a word that a row selects is the
word of an instruction. -/

theorem legalWord_iff {w : Word} : legalWord w = true ↔ ∃ r ∈ opcodeMap, r.selects w = true := by
  rw [legalWord, List.any_eq_true]

/-- The family `EncodingRow` for every instruction. -/
theorem row_selects_encode : ∀ i : Instr, i.row ∈ opcodeMap ∧ i.row.selects (encode i) = true
  | .op00E0 => EncodingRow.op00E0
  | .op00EE => EncodingRow.op00EE
  | .op1NNN nnn => EncodingRow.op1NNN nnn
  | .op2NNN nnn => EncodingRow.op2NNN nnn
  | .op3XNN x nn => EncodingRow.op3XNN x nn
  | .op4XNN x nn => EncodingRow.op4XNN x nn
  | .op5XY0 x y => EncodingRow.op5XY0 x y
  | .op6XNN x nn => EncodingRow.op6XNN x nn
  | .op7XNN x nn => EncodingRow.op7XNN x nn
  | .op8XY0 x y => EncodingRow.op8XY0 x y
  | .op8XY1 x y => EncodingRow.op8XY1 x y
  | .op8XY2 x y => EncodingRow.op8XY2 x y
  | .op8XY3 x y => EncodingRow.op8XY3 x y
  | .op8XY4 x y => EncodingRow.op8XY4 x y
  | .op8XY5 x y => EncodingRow.op8XY5 x y
  | .op8XY6 x y => EncodingRow.op8XY6 x y
  | .op8XY7 x y => EncodingRow.op8XY7 x y
  | .op8XYE x y => EncodingRow.op8XYE x y
  | .op9XY0 x y => EncodingRow.op9XY0 x y
  | .opANNN nnn => EncodingRow.opANNN nnn
  | .opBNNN nnn => EncodingRow.opBNNN nnn
  | .opCXNN x nn => EncodingRow.opCXNN x nn
  | .opDXYN x y n => EncodingRow.opDXYN x y n
  | .opEX9E x => EncodingRow.opEX9E x
  | .opEXA1 x => EncodingRow.opEXA1 x
  | .opFX07 x => EncodingRow.opFX07 x
  | .opFX0A x => EncodingRow.opFX0A x
  | .opFX15 x => EncodingRow.opFX15 x
  | .opFX18 x => EncodingRow.opFX18 x
  | .opFX1E x => EncodingRow.opFX1E x
  | .opFX29 x => EncodingRow.opFX29 x
  | .opFX33 x => EncodingRow.opFX33 x
  | .opFX55 x => EncodingRow.opFX55 x
  | .opFX65 x => EncodingRow.opFX65 x

theorem legalWord_encode (i : Instr) : legalWord (encode i) = true :=
  legalWord_iff.2 ⟨i.row, row_selects_encode i⟩

/-- A field that the row fixes whole reads in a selected word as in the row's bits. -/
theorem field_of_selects {r : OpcodeRow} {w : Word} {start len : Nat} (h : r.selects w = true)
    (hm : r.mask.extractLsb' start len = BitVec.allOnes len) : w.extractLsb' start len = r.bits.extractLsb' start len := by
  rw [← OpcodeRow.bits_of_selects h, BitVec.extractLsb'_and, hm, BitVec.and_allOnes]

/-- A row that fixes every digit selects one word. -/
theorem eq_bits_of_selects {r : OpcodeRow} {w : Word} (h : r.selects w = true) (hm : r.mask = BitVec.allOnes 16) :
    w = r.bits := by
  rw [← OpcodeRow.bits_of_selects h, hm, BitVec.and_allOnes]

/-- A word that a row of the map selects is the word of an instruction of that row, row by row in the map's order (R76): the
operands are the word's own fields, and the row fixes the others. -/
theorem exists_encode_of_selects (w : Word) :
    ∀ r ∈ opcodeMap, r.selects w = true → ∃ i, encode i = w ∧ i.row = r := by
  simp only [opcodeMap, List.cons_append, List.nil_append, List.forall_mem_cons]
  exact ⟨
    fun h => ⟨.op00E0, (eq_bits_of_selects h rfl).symm, rfl⟩,
    fun h => ⟨.op00EE, (eq_bits_of_selects h rfl).symm, rfl⟩,
    fun h => ⟨.op1NNN _, formatNNN_of_opField (field_of_selects h rfl), rfl⟩,
    fun h => ⟨.op2NNN _, formatNNN_of_opField (field_of_selects h rfl), rfl⟩,
    fun h => ⟨.op3XNN _ _, formatXNN_of_fields (field_of_selects h rfl) rfl, rfl⟩,
    fun h => ⟨.op4XNN _ _, formatXNN_of_fields (field_of_selects h rfl) rfl, rfl⟩,
    fun h => ⟨.op5XY0 _ _, formatXYN_of_fields (field_of_selects h rfl) (field_of_selects h rfl), rfl⟩,
    fun h => ⟨.op6XNN _ _, formatXNN_of_fields (field_of_selects h rfl) rfl, rfl⟩,
    fun h => ⟨.op7XNN _ _, formatXNN_of_fields (field_of_selects h rfl) rfl, rfl⟩,
    fun h => ⟨.op8XY0 _ _, formatXYN_of_fields (field_of_selects h rfl) (field_of_selects h rfl), rfl⟩,
    fun h => ⟨.op8XY1 _ _, formatXYN_of_fields (field_of_selects h rfl) (field_of_selects h rfl), rfl⟩,
    fun h => ⟨.op8XY2 _ _, formatXYN_of_fields (field_of_selects h rfl) (field_of_selects h rfl), rfl⟩,
    fun h => ⟨.op8XY3 _ _, formatXYN_of_fields (field_of_selects h rfl) (field_of_selects h rfl), rfl⟩,
    fun h => ⟨.op8XY4 _ _, formatXYN_of_fields (field_of_selects h rfl) (field_of_selects h rfl), rfl⟩,
    fun h => ⟨.op8XY5 _ _, formatXYN_of_fields (field_of_selects h rfl) (field_of_selects h rfl), rfl⟩,
    fun h => ⟨.op8XY6 _ _, formatXYN_of_fields (field_of_selects h rfl) (field_of_selects h rfl), rfl⟩,
    fun h => ⟨.op8XY7 _ _, formatXYN_of_fields (field_of_selects h rfl) (field_of_selects h rfl), rfl⟩,
    fun h => ⟨.op8XYE _ _, formatXYN_of_fields (field_of_selects h rfl) (field_of_selects h rfl), rfl⟩,
    fun h => ⟨.op9XY0 _ _, formatXYN_of_fields (field_of_selects h rfl) (field_of_selects h rfl), rfl⟩,
    fun h => ⟨.opANNN _, formatNNN_of_opField (field_of_selects h rfl), rfl⟩,
    fun h => ⟨.opBNNN _, formatNNN_of_opField (field_of_selects h rfl), rfl⟩,
    fun h => ⟨.opCXNN _ _, formatXNN_of_fields (field_of_selects h rfl) rfl, rfl⟩,
    fun h => ⟨.opDXYN _ _ _, formatXYN_of_fields (field_of_selects h rfl) rfl, rfl⟩,
    fun h => ⟨.opEX9E _, formatXNN_of_fields (field_of_selects h rfl) (field_of_selects h rfl), rfl⟩,
    fun h => ⟨.opEXA1 _, formatXNN_of_fields (field_of_selects h rfl) (field_of_selects h rfl), rfl⟩,
    fun h => ⟨.opFX07 _, formatXNN_of_fields (field_of_selects h rfl) (field_of_selects h rfl), rfl⟩,
    fun h => ⟨.opFX0A _, formatXNN_of_fields (field_of_selects h rfl) (field_of_selects h rfl), rfl⟩,
    fun h => ⟨.opFX15 _, formatXNN_of_fields (field_of_selects h rfl) (field_of_selects h rfl), rfl⟩,
    fun h => ⟨.opFX18 _, formatXNN_of_fields (field_of_selects h rfl) (field_of_selects h rfl), rfl⟩,
    fun h => ⟨.opFX1E _, formatXNN_of_fields (field_of_selects h rfl) (field_of_selects h rfl), rfl⟩,
    fun h => ⟨.opFX29 _, formatXNN_of_fields (field_of_selects h rfl) (field_of_selects h rfl), rfl⟩,
    fun h => ⟨.opFX33 _, formatXNN_of_fields (field_of_selects h rfl) (field_of_selects h rfl), rfl⟩,
    fun h => ⟨.opFX55 _, formatXNN_of_fields (field_of_selects h rfl) (field_of_selects h rfl), rfl⟩,
    fun h => ⟨.opFX65 _, formatXNN_of_fields (field_of_selects h rfl) (field_of_selects h rfl), rfl⟩,
    fun _ h => absurd h List.not_mem_nil⟩

/-- Settles O5: an accepted word is an instruction's word, so it is legal; and a legal word is an instruction's word, which
decodes (O2). -/
theorem decoderFollowsTheOpcodeMap : Obligations.DecoderFollowsTheOpcodeMap := by
  intro w
  refine ⟨fun hw => ?_, fun hw => ?_⟩
  · cases hd : decodeWord w with
    | ok i =>
      rw [← encodeOfDecode w i hd, legalWord_encode] at hw
      cases hw
    | error e =>
      have ha := decodeWord_answers w
      rw [hd] at ha
      cases ha
      rfl
  · obtain ⟨r, hmem, hsel⟩ := legalWord_iff.1 hw
    obtain ⟨i, rfl, rfl⟩ := exists_encode_of_selects w r hmem hsel
    exact ⟨i, decodeOfEncode i, hmem, hsel⟩

/-- Settles O1, by running the decoder on the ten words. -/
theorem sampleWordsDecode : Obligations.SampleWordsDecode := by
  unfold Obligations.SampleWordsDecode
  decide

/-- Settles O11: the fetched word is the one byte appended to the other. -/
theorem fetchIsBigEndian : Obligations.FetchIsBigEndian := fun _ =>
  ⟨wordOfBytes_toNat _ _, BitVec.extractLsb'_append_eq_left, BitVec.extractLsb'_append_eq_right⟩

end Sys2Proof
end

section
/-! SUPPORT. One turn of the step cycle (40_step_cycle.md R90 to R96): the instruction that a step fetches, that every running
core has a next state, and what the count at the end of a step does to the timers. -/
namespace Sys2Proof.Machine

/-- The step of `s` fetches a legal word and decodes it to `i` (R90, R91). -/
def State.Fetches (s : State) (i : Instr) : Prop := s.Fetchable ∧ decodeWord s.fetchWord = .ok i

/-- The step of a state that fetches `i` runs `i` with pc advanced by 2 and finishes the step (R90). -/
theorem State.Fetches.step_eq {s t : State} {i : Instr} (h : s.Fetches i) (he : exec i s.advancePc = .next t) :
    step s = .next t.finishStep := by
  obtain ⟨⟨hs, hp⟩, hd⟩ := h
  exact step_of_exec hs hp hd he

/-- Settles O10: the word fetched is the two bytes at pc, and `step_of_decode` runs what it decodes to. -/
theorem stepRunsTheDecodedInstruction : Obligations.StepRunsTheDecodedInstruction := by
  intro s i ⟨hs, hp⟩ hd
  exact step_of_decode hs hp hd

/-- No arm of `exec` faults the host or refuses (R10, R93). -/
theorem exec_answers_next (i : Instr) (s : State) : ∃ t, exec i s = .next t := by
  cases i <;> exact ⟨_, rfl⟩

/-- Settles O17: a running core faults at the fetch, faults on an illegal word, or runs an instruction. -/
theorem everyRunningCoreHasANextState : Obligations.EveryRunningCoreHasANextState := by
  refine ⟨exec_answers_next, fun s hs => ?_⟩
  by_cases hp : s.pc.toNat ≤ 0xFFE
  · cases hd : decodeWord s.fetchWord with
    | error r => exact ⟨_, step_of_illegal hs hp hd⟩
    | ok i =>
      obtain ⟨t, he⟩ := exec_answers_next i s.advancePc
      exact ⟨_, step_of_exec hs hp hd he⟩
  · exact ⟨_, step_of_fetchFault hs (Nat.lt_of_not_le hp)⟩

/-- Counting a step writes the count and the timers alone (R94, R95). -/
theorem State.countStep_frame (s : State) : FrameExcept [.DT, .ST, .steps] s s.countStep := by
  simp [frameExcept_iff]

/-- Settles O14: an uncounted step ends where `exec` ended, a counted one a `countStep` later. -/
theorem eighthStepTicksTheTimers : Obligations.EighthStepTicksTheTimers := by
  intro s i t hf hd he
  have hstep : step s = .next t.finishStep := State.Fetches.step_eq ⟨hf, hd⟩ he
  rcases t.finishStep_cases with ⟨hc, e⟩ | ⟨hc, e⟩ <;> rw [e] at hstep
  · exact ⟨fun _ => hstep, fun h => absurd hc h⟩
  · refine ⟨fun h => absurd h hc, fun _ => ⟨t.countStep, hstep, ?_⟩⟩
    rcases t.countStep_cases with ⟨hlt, hsteps, hDT, hST⟩ | ⟨heq, hsteps, hDT, hST⟩
    · rw [hsteps, hDT, hST, if_neg (by omega), if_neg (by omega)]
      exact ⟨by omega, rfl, rfl, t.countStep_frame⟩
    · rw [hsteps, hDT, hST, if_pos heq, if_pos heq, heq]
      exact ⟨rfl, tickTimer_toNat _, tickTimer_toNat _, t.countStep_frame⟩

/-- From `s` to `t`, `n` steps were counted and nothing else wrote a timer: each has lost one for every 8 from the phase of
`s` on, down to zero (R95). -/
def CountedDown (n : Nat) (s t : State) : Prop :=
  t.steps.val = (s.steps.val + n) % 8 ∧ t.DT.toNat = s.DT.toNat - (s.steps.val + n) / 8 ∧
  t.ST.toNat = s.ST.toNat - (s.steps.val + n) / 8

theorem CountedDown.refl (s : State) : CountedDown 0 s s := by
  have := s.steps.isLt
  refine ⟨?_, ?_, ?_⟩ <;> omega

/-- One count more at the start: it loses a timer one exactly when it passes a multiple of 8. -/
theorem CountedDown.trans {n : Nat} {s t u : State} (h : CountedDown 1 s t) (h' : CountedDown n t u) :
    CountedDown (n + 1) s u := by
  have := s.steps.isLt
  obtain ⟨hk, hDT, hST⟩ := h
  obtain ⟨hk', hDT', hST'⟩ := h'
  refine ⟨?_, ?_, ?_⟩ <;> omega

theorem State.countStep_countedDown (s : State) : CountedDown 1 s s.countStep := by
  rcases s.countStep_cases with ⟨hlt, hsteps, hDT, hST⟩ | ⟨heq, hsteps, hDT, hST⟩
  · refine ⟨?_, ?_, ?_⟩ <;> simp only [hsteps, hDT, hST] <;> omega
  · refine ⟨?_, ?_, ?_⟩ <;> simp only [hsteps, hDT, hST, tickTimer_toNat] <;> omega

theorem State.iterate_countStep_countedDown (n : Nat) (s : State) : CountedDown n s (State.countStep^[n] s) := by
  induction n generalizing s with
  | zero => exact CountedDown.refl s
  | succ n ih => exact s.countStep_countedDown.trans (ih s.countStep)

/-- Settles O15: a timer t > 0 is zero once (s + n) / 8 has reached t. -/
theorem timersCountDown : Obligations.TimersCountDown := by
  intro n s
  have := s.steps.isLt
  obtain ⟨hsteps, hDT, hST⟩ := s.iterate_countStep_countedDown n
  refine ⟨hsteps, hDT, hST, fun hpos => ?_⟩
  rw [← BitVec.toNat_inj, hDT, BitVec.toNat_ofNat]
  omega

end Sys2Proof.Machine
end

section
/-! SUPPORT. Two runs that stay at one instruction for any number of steps: the jump to itself and the wait for a key
(40_step_cycle.md R101, R102). Each is an induction over the run whose step keeps the instruction fetched. -/
namespace Sys2Proof.Machine

theorem Part.same_refl (p : Part) (s : State) : p.same s s := by
  cases p <;> simp [Part.same]

theorem Part.same_trans {p : Part} {s t u : State} (h : p.same s t) (h' : p.same t u) : p.same s u := by
  cases p
  case V | mem => exact fun a => (h' a).trans (h a)
  case display => exact fun x y => (h' x y).trans (h x y)
  case stack | outputs => exact ⟨h'.1.trans h.1, h'.2.trans h.2⟩
  all_goals exact Eq.trans h' h

theorem FrameExcept.refl (ps : List Part) (s : State) : FrameExcept ps s s := fun p _ => p.same_refl s

theorem FrameExcept.trans {ps : List Part} {s t u : State} (h : FrameExcept ps s t) (h' : FrameExcept ps t u) :
    FrameExcept ps s u := fun p hp => Part.same_trans (h p hp) (h' p hp)

/-- A state with the same status, pc and memory fetches the same instruction (R91). -/
theorem State.Fetches.of_frame {s t : State} {i : Instr} {ps : List Part} (h : s.Fetches i) (hf : FrameExcept ps s t)
    (hps : .status ∉ ps ∧ .pc ∉ ps ∧ .mem ∉ ps) : t.Fetches i := by
  obtain ⟨hstatus, hpc, hmem⟩ := hps
  have hstatus : t.status = s.status := hf .status hstatus
  have hpc : t.pc = s.pc := hf .pc hpc
  have hmem : ∀ a, Memory.read t.mem a = Memory.read s.mem a := hf .mem hmem
  unfold State.Fetches State.Fetchable State.fetchWord
  rw [hstatus, hpc, hmem, hmem]
  exact h

/-! The idle loop (R101). -/

/-- The step of `s` fetches a jump to the address it stands at. -/
def State.JumpsToItself (s : State) : Prop := s.Fetches (.op1NNN (s.pc.setWidth 12))

/-- The two bytes of R101, 0x10 + a[11:8] and a[7:0], are the word of the jump to a. -/
theorem State.jumpsToItself_of_bytes {s : State} (hf : s.Fetchable)
    (hhi : (Memory.read s.mem s.pc.toNat).toNat = 0x10 + s.pc.toNat / 256)
    (hlo : (Memory.read s.mem (s.pc.toNat + 1)).toNat = s.pc.toNat % 256) : s.JumpsToItself := by
  have hword : s.fetchWord = encode (.op1NNN (s.pc.setWidth 12)) := by
    obtain ⟨-, hp⟩ := hf
    apply BitVec.eq_of_toNat_eq
    rw [State.fetchWord, wordOfBytes_toNat, hhi, hlo, encode, formatNNN_toNat, BitVec.toNat_setWidth, BitVec.toNat_ofNat]
    omega
  refine ⟨hf, ?_⟩
  rw [hword]
  exact decodeOfEncode _

/-- A fetchable address fits a literal of 12 bits. -/
theorem zextAddr_setWidth {w : Word} (h : w.toNat ≤ 0xFFE) : zextAddr (w.setWidth 12) = w := by
  apply BitVec.eq_of_toNat_eq
  rw [zextAddr, BitVec.toNat_setWidth, BitVec.toNat_setWidth]
  omega

/-- A jump to itself reports 1, is counted, and does nothing else. -/
theorem State.JumpsToItself.step_eq {s : State} (h : s.JumpsToItself) : step s = .next s.completed.countStep := by
  have hexec : exec (.op1NNN (s.pc.setWidth 12)) s.advancePc = .next s.completed := by
    show Host.Outcome.next (s.advancePc.setPc (zextAddr (s.pc.setWidth 12))).completed = _
    obtain ⟨⟨-, hp⟩, -⟩ := h
    rw [zextAddr_setWidth hp]
    rfl
  exact State.Fetches.step_eq h hexec

theorem State.completed_countStep_frame (s : State) :
    FrameExcept [.DT, .ST, .steps, .outputs] s s.completed.countStep := by
  simp [frameExcept_iff]

theorem State.JumpsToItself.next {s : State} (h : s.JumpsToItself) : s.completed.countStep.JumpsToItself := by
  have hf := State.Fetches.of_frame h s.completed_countStep_frame (by decide)
  simpa [State.JumpsToItself] using hf

/-- The idle loop for `n` steps, by induction on `n` from any phase. -/
theorem State.JumpsToItself.run {s : State} (h : s.JumpsToItself) (n : Nat) :
    ∃ t : State, Sys2Proof.core.run n s = .next t ∧ FrameExcept [.DT, .ST, .steps, .outputs] s t ∧ CountedDown n s t := by
  induction n generalizing s with
  | zero => exact ⟨s, rfl, .refl _ s, .refl s⟩
  | succ n ih =>
    obtain ⟨t, hrun, hframe, hcount⟩ := ih h.next
    have hfirst : CountedDown 1 s s.completed.countStep := s.completed.countStep_countedDown
    exact ⟨t, (core_run_succ h.step_eq n).trans hrun, s.completed_countStep_frame.trans hframe, hfirst.trans hcount⟩

/-- Settles O16: the two bytes are a jump to itself, and that stays so from step to step. -/
theorem idleLoopOnlyCountsTimers : Obligations.IdleLoopOnlyCountsTimers := by
  intro s hf hhi hlo n
  exact (State.jumpsToItself_of_bytes hf hhi hlo).run n

/-! The wait for a key (R102). -/

/-- An instant of waiting: nothing reported, the environment moved on, the core as it is (log 3). -/
def State.afterWait (s : State) : State :=
  { s with cycles := .nothing, fbUpdate := false, env := s.env.afterNextKey }

theorem State.afterWait_frame (s : State) : FrameExcept [.outputs, .env] s s.afterWait := by
  rw [frameExcept_iff]
  simp [State.afterWait, State.v, State.pixel]

/-- FX0A with no press presented puts pc back to where the step found it, and is not counted. -/
theorem State.Fetches.step_of_no_press {s : State} {x : RegNo} (h : s.Fetches (.opFX0A x)) (hk : s.env.nextKey = none) :
    step s = .next s.afterWait := by
  have hwait : s.advancePc.waitForKey = s.afterWait := by
    simp [State.waitForKey, State.advancePc, State.setPc, State.afterWait]
  have hexec : exec (.opFX0A x) s.advancePc = .next s.afterWait := by
    show Host.Outcome.next (s.advancePc.keyWait x s.env.nextKey) = _
    rw [hk]
    exact congrArg _ hwait
  exact h.step_eq hexec

/-- The wait for `n` instants without a press, by induction on `n`: each takes one from the list. -/
theorem State.Fetches.run_of_no_press {s : State} {x : RegNo} (h : s.Fetches (.opFX0A x)) (n : Nat)
    (later : List (Option Key)) (hk : s.env.presses = List.replicate n none ++ later) :
    ∃ t : State, Sys2Proof.core.run n s = .next t ∧ FrameExcept [.outputs, .env] s t := by
  induction n generalizing s with
  | zero => exact ⟨s, rfl, .refl _ s⟩
  | succ n ih =>
    have hnone : s.env.nextKey = none := by simp [Env.nextKey, hk, List.replicate_succ]
    have hrest : s.afterWait.env.presses = List.replicate n none ++ later := by
      simp [State.afterWait, Env.afterNextKey, hk, List.replicate_succ]
    obtain ⟨t, hrun, hframe⟩ := ih (h.of_frame s.afterWait_frame (by decide)) hrest
    exact ⟨t, (core_run_succ (h.step_of_no_press hnone) n).trans hrun, s.afterWait_frame.trans hframe⟩

/-- An effect that reports a cost, where every check comes first: it reports or the instruction faults (R98, R185). -/
theorem State.unlessFault_reports_or_faults (s : State) (f : Option FaultRecord) {t : State} (ht : t.cycles ≠ .nothing) :
    (s.unlessFault f t).cycles ≠ .nothing ∨ ∃ r, (s.unlessFault f t).status = .faulted r := by
  rcases s.unlessFault_cases t f with ⟨r, -, e⟩ | ⟨-, e⟩ <;> rw [e]
  · exact .inr ⟨r, rfl⟩
  · exact .inl ht

/-- Every instruction but FX0A completes or faults (R96, R98, R102). -/
theorem exec_reports_or_faults {i : Instr} {s t : State} (hi : ∀ x, i ≠ .opFX0A x) (h : exec i s = .next t) :
    t.cycles ≠ .nothing ∨ ∃ f, t.status = .faulted f := by
  cases i
  case opFX0A x => exact absurd rfl (hi x)
  case op00EE | op2NNN | opDXYN | opFX33 | opFX55 | opFX65 =>
    cases h
    exact s.unlessFault_reports_or_faults _ (by simp)
  all_goals
    cases h
    exact .inl (by simp)

/-- Settles O60: a waiting step changes the outputs and the environment alone, so the next one waits at the same FX0A. -/
theorem waitingForAKeyChangesNothing : Obligations.WaitingForAKeyChangesNothing := by
  refine ⟨fun s x hf hd => ?_, fun i s t => exec_reports_or_faults⟩
  have h : s.Fetches (.opFX0A x) := ⟨hf, hd⟩
  exact ⟨h.step_of_no_press, h.run_of_no_press⟩

end Sys2Proof.Machine
end

section
/-! SUPPORT. What the environment is asked (40_step_cycle.md R93, R99): the instructions that ask nothing leave it alone and
commute with a change of it. -/
namespace Sys2Proof.Machine

@[simp] theorem State.unlessFault_env (s t : State) (f : Option FaultRecord) :
    (s.unlessFault f t).env = if f.isSome then s.env else t.env := by
  cases f <;> rfl

theorem State.unlessFault_setEnv (s t : State) (f : Option FaultRecord) (e : Env) :
    (s.setEnv e).unlessFault f (t.setEnv e) = (s.unlessFault f t).setEnv e := by
  cases f <;> rfl

/-- An instruction that asks nothing leaves the environment as it is. -/
theorem exec_env {i : Instr} {s t : State} (hi : Instr.asks i = false) (h : exec i s = .next t) : t.env = s.env := by
  cases i
  case opCXNN | opEX9E | opEXA1 | opFX0A => cases hi
  all_goals
    cases h
    simp

/-- An instruction that asks nothing does the same in any environment. -/
theorem exec_setEnv {i : Instr} {s t : State} (e : Env) (hi : Instr.asks i = false) (h : exec i s = .next t) :
    exec i (s.setEnv e) = .next (t.setEnv e) := by
  cases i
  case opCXNN | opEX9E | opEXA1 | opFX0A => cases hi
  case op2NNN nnn =>
    cases h
    show Host.Outcome.next ((s.setEnv e).unlessFault (s.pushFault s.pc)
      (((s.setEnv e).pushStack s.pc).setPc (zextAddr nnn)).completed) = _
    rw [State.pushStack_setEnv, ← State.unlessFault_setEnv]
    rfl
  case op00EE | opDXYN | opFX33 | opFX55 | opFX65 =>
    cases h
    rw [← State.unlessFault_setEnv]
    rfl
  case op3XNN | op4XNN | op5XY0 | op9XY0 =>
    cases h
    exact congrArg (fun p : State => Host.Outcome.next p.completed) (s.skipIf_setEnv _ e)
  all_goals
    cases h
    rfl

/-- Settles O24: `Instr.asks` is true of just the four instructions that read or move the environment. -/
theorem onlyFourInstructionsAskTheEnvironment : Obligations.OnlyFourInstructionsAskTheEnvironment := by
  intro i s t e hi h
  exact ⟨exec_env hi h, exec_setEnv e hi h⟩

end Sys2Proof.Machine
end

section
/-! SUPPORT. Control transfer (41_flow.md R110 to R114): what 00EE and 2NNN answer once the depth of the stack is known, and
the targets of the jumps as numbers. -/
namespace Sys2Proof.Machine

@[simp] theorem zextAddr_toNat (nnn : Addr12) : (zextAddr nnn).toNat = nnn.toNat :=
  BitVec.toNat_setWidth_of_le (by decide)

/-- The target of BNNN is the sum as a number: 0xFFF + 0xFF fits 16 bits, so nothing wraps (R113). -/
theorem zextAddr_add_zextByte_toNat (nnn : Addr12) (b : Byte) :
    (zextAddr nnn + zextByte b).toNat = nnn.toNat + b.toNat := by
  have := nnn.isLt
  have := b.isLt
  have hb : (zextByte b).toNat = b.toNat := BitVec.toNat_setWidth_of_le (by decide)
  rw [BitVec.toNat_add, zextAddr_toNat, hb]
  omega

theorem State.completed_reportsOne (s : State) : ReportsOne s.completed := ⟨rfl, rfl⟩

/-- A completed jump writes pc and the outputs alone. -/
theorem State.setPc_completed_frame (s : State) (w : Word) : FrameExcept [.pc, .outputs] s (s.setPc w).completed := by
  simp [frameExcept_iff]

/-- The top entry is the one below sp (R25). -/
theorem State.topOfStack_eq {s : State} {k : Nat} (h : s.sp.val = k + 1) (hk : k < 16) : s.topOfStack = s.stack[k] := by
  simp [State.topOfStack, h]

/-! `peekStack()` (R183). -/

theorem State.peekStack_of_pending {s : State} (hp : 0 < s.sp.val) : s.peekStack = .ok s.topOfStack := by
  rcases s.popFault_cases with ⟨h, -⟩ | ⟨-, e⟩
  · omega
  · rw [State.peekStack, e]

theorem State.peekStack_of_empty {s : State} (h : s.sp.val = 0) : s.peekStack = .error ⟨.emptyStack, 0x0000#16⟩ := by
  rcases s.popFault_cases with ⟨-, e⟩ | ⟨hp, -⟩
  · rw [State.peekStack, e]
  · omega

/-! The return and the call, case by case of their check (R110, R112). -/

/-- The state after a completed 00EE. -/
def State.returned (s : State) : State := (s.dropTop.setPc s.topOfStack).completed

/-- The state after a completed 2NNN. -/
def State.called (s : State) (nnn : Addr12) : State := ((s.pushStack s.pc).setPc (zextAddr nnn)).completed

theorem exec_op00EE_of_pending {s : State} (hp : 0 < s.sp.val) : exec .op00EE s = .next s.returned := by
  show Host.Outcome.next (s.unlessFault s.popFault s.returned) = _
  rcases s.popFault_cases with ⟨h, -⟩ | ⟨-, e⟩
  · omega
  · rw [e, State.unlessFault_none]

theorem exec_op00EE_of_empty {s : State} (h : s.sp.val = 0) :
    exec .op00EE s = .next (s.takeFault ⟨.emptyStack, 0x0000#16⟩) := by
  show Host.Outcome.next (s.unlessFault s.popFault s.returned) = _
  rcases s.popFault_cases with ⟨-, e⟩ | ⟨hp, -⟩
  · rw [e, State.unlessFault_some]
  · omega

theorem exec_op2NNN_of_room {s : State} (nnn : Addr12) (hr : s.sp.val < 16) :
    exec (.op2NNN nnn) s = .next (s.called nnn) := by
  show Host.Outcome.next (s.unlessFault (s.pushFault s.pc) (s.called nnn)) = _
  rcases s.pushFault_cases s.pc with ⟨h, -⟩ | ⟨-, e⟩
  · omega
  · rw [e, State.unlessFault_none]

theorem State.returned_frame (s : State) : FrameExcept [.pc, .stack, .outputs] s s.returned := by
  simp [frameExcept_iff, State.returned]

theorem State.called_frame (s : State) (nnn : Addr12) : FrameExcept [.pc, .stack, .outputs] s (s.called nnn) := by
  simp [frameExcept_iff, State.called]

/-- A call with room leaves the stack as its push does (R25, R112). -/
theorem State.called_stack {s : State} (nnn : Addr12) (hr : s.sp.val < 16) :
    (s.called nnn).sp.val = s.sp.val + 1 ∧ (s.called nnn).stack = s.stack.set s.sp.val s.pc hr :=
  s.pushStack_spec s.pc hr

end Sys2Proof.Machine
end

section
/-! The statements of 41_flow.md. -/
namespace Sys2Proof.Machine

/-- Settles O32: the two cases of `popFault`, with a call pending and with none. -/
theorem returnPopsTheTopEntry : Obligations.ReturnPopsTheTopEntry := by
  intro s
  refine ⟨fun hp => ?_, fun h => ⟨exec_op00EE_of_empty h, State.peekStack_of_empty h⟩⟩
  exact ⟨s.returned, exec_op00EE_of_pending hp, rfl, rfl, rfl, s.returned_frame, State.completed_reportsOne _,
    State.peekStack_of_pending hp⟩

/-- Settles O33: both jumps set pc and complete; BNNN's sum does not wrap. -/
theorem jumpsSetPc : Obligations.JumpsSetPc := by
  intro s nnn
  exact ⟨⟨_, rfl, zextAddr_toNat nnn, s.setPc_completed_frame _, State.completed_reportsOne _⟩,
    ⟨_, rfl, zextAddr_add_zextByte_toNat nnn _, s.setPc_completed_frame _, State.completed_reportsOne _⟩⟩

/-- Settles O34: the push writes entry sp alone. -/
theorem callPushesPcAndJumps : Obligations.CallPushesPcAndJumps := by
  intro s nnn hr
  obtain ⟨hsp, hst⟩ := State.called_stack nnn hr
  refine ⟨s.called nnn, exec_op2NNN_of_room nnn hr, zextAddr_toNat nnn, hsp, ?_, fun k hk => ?_, s.called_frame nnn,
    State.completed_reportsOne _⟩
  · simp [hst]
  · simp [hst, Vector.getElem_set_ne, hk.symm]

/-- Settles O35: the return pops the entry the call pushed, and takes back the one level the call added. -/
theorem returnUndoesCall : Obligations.ReturnUndoesCall := by
  intro s t m nnn hr he hsp hentry
  rw [exec_op2NNN_of_room nnn hr] at he
  cases he
  obtain ⟨hdepth, hst⟩ := State.called_stack nnn hr
  rw [← hsp] at hdepth
  refine ⟨m.returned, exec_op00EE_of_pending (by omega), ?_, Fin.ext ?_⟩
  · calc m.topOfStack = m.stack[s.sp.val] := State.topOfStack_eq hdepth hr
      _ = (s.called nnn).stack[s.sp.val] := hentry
      _ = s.pc := by simp [hst]
  · show m.sp.val - 1 = s.sp.val
    omega

end Sys2Proof.Machine
end

section
/-! SUPPORT. The skips (42_skips.md R120 to R126): pc after a skip as a number, and what a completed skip leaves alone. -/
namespace Sys2Proof.Machine

/-- A skip adds 2 to pc modulo 65536 (R120, D15). -/
theorem State.skipIf_pc_toNat (s : State) (c : Bool) :
    (s.skipIf c).pc.toNat = if c then (s.pc.toNat + 2) % 65536 else s.pc.toNat := by
  rw [State.skipIf_pc, apply_ite BitVec.toNat]
  rfl

theorem State.skipIf_eq_pc_toNat (s : State) (a b : Byte) :
    (s.skipIf (decide (a = b))).pc.toNat = if a.toNat = b.toNat then (s.pc.toNat + 2) % 65536 else s.pc.toNat := by
  simp only [State.skipIf_pc_toNat, decide_eq_true_eq, BitVec.toNat_inj]

theorem State.skipIf_ne_pc_toNat (s : State) (a b : Byte) :
    (s.skipIf (decide (a ≠ b))).pc.toNat = if a.toNat = b.toNat then s.pc.toNat else (s.pc.toNat + 2) % 65536 := by
  simp only [State.skipIf_pc_toNat, decide_eq_true_eq, ne_eq, ite_not, BitVec.toNat_inj]

/-- A skip on the opposite condition swaps the two outcomes. -/
theorem State.skipIf_not_pc (s : State) (c : Bool) : (s.skipIf !c).pc = if c then s.pc else s.pc + 2#16 := by
  cases c <;> rfl

/-- A completed skip on registers writes pc and the outputs alone. -/
theorem State.skipIf_completed_frame (s : State) (c : Bool) : FrameExcept [.pc, .outputs] s (s.skipIf c).completed := by
  simp [frameExcept_iff]

/-- A completed skip on a key also moves the environment on. -/
theorem State.skipIf_setEnv_completed_frame (s : State) (c : Bool) (e : Env) :
    FrameExcept [.pc, .outputs, .env] s ((s.skipIf c).setEnv e).completed := by
  simp [frameExcept_iff]

/-- A key code up to 15 is answered by its bit of the sample (R33). -/
theorem Env.keyDown_of_le (e : Env) {k : Byte} (hk : k.toNat ≤ 15) : e.keyDown k = e.keypad.keyDown.getLsbD k.toNat :=
  if_pos hk

end Sys2Proof.Machine
end

section
/-! The statements of 42_skips.md. -/
namespace Sys2Proof.Machine

/-- Settles O36: two skips on equality, two on inequality, of bytes compared as numbers. -/
theorem registerSkipsMovePc : Obligations.RegisterSkipsMovePc := by
  intro s x y nn
  refine ⟨⟨_, rfl, ?op3XNN⟩, ⟨_, rfl, ?op4XNN⟩, ⟨_, rfl, ?op5XY0⟩, ⟨_, rfl, ?op9XY0⟩⟩
  case op3XNN => exact ⟨s.skipIf_eq_pc_toNat _ _, s.skipIf_completed_frame _, State.completed_reportsOne _⟩
  case op4XNN => exact ⟨s.skipIf_ne_pc_toNat _ _, s.skipIf_completed_frame _, State.completed_reportsOne _⟩
  case op5XY0 => exact ⟨s.skipIf_eq_pc_toNat _ _, s.skipIf_completed_frame _, State.completed_reportsOne _⟩
  case op9XY0 => exact ⟨s.skipIf_ne_pc_toNat _ _, s.skipIf_completed_frame _, State.completed_reportsOne _⟩

/-- Settles O37: both skips test the same answer of the keypad, EXA1 its negation. -/
theorem keySkipsFollowTheKeypad : Obligations.KeySkipsFollowTheKeypad := by
  intro s x
  refine ⟨⟨_, rfl, (s.skipIf_pc_cases _).symm, fun hk => ?opEX9E, rfl, s.skipIf_setEnv_completed_frame _ _,
      State.completed_reportsOne _⟩,
    ⟨_, rfl, (s.skipIf_pc_cases _).symm, fun hk => ?opEXA1, rfl, s.skipIf_setEnv_completed_frame _ _,
      State.completed_reportsOne _⟩⟩
  case opEX9E =>
    rw [← s.env.keyDown_of_le hk]
    exact s.skipIf_pc _
  case opEXA1 =>
    rw [← s.env.keyDown_of_le hk]
    exact s.skipIf_not_pc _

end Sys2Proof.Machine
end

section
/-! SUPPORT. The ALU (43_alu.md R130 to R143): results and flag bytes as numbers, and all that a completed register
write, with or without a flag, answers. -/
namespace Sys2Proof.Machine

theorem flagByte_decide_toNat (p : Prop) [Decidable p] : (flagByte (decide p)).toNat = if p then 1 else 0 := by
  by_cases h : p <;> simp [h, flagByte]

theorem carryFlag_toNat (a b : Byte) : (carryFlag a b).toNat = if a.toNat + b.toNat > 255 then 1 else 0 :=
  flagByte_decide_toNat _

theorem noBorrowFlag_toNat (a b : Byte) : (noBorrowFlag a b).toNat = if a.toNat ≥ b.toNat then 1 else 0 :=
  flagByte_decide_toNat _

theorem flagByte_getLsbD_toNat (b : Byte) (i : Nat) : (flagByte (b.getLsbD i)).toNat = b.toNat / 2 ^ i % 2 := by
  rw [BitVec.getLsbD, Nat.testBit_eq_decide_div_mod_eq, flagByte_decide_toNat]
  split <;> omega

theorem lowBitFlag_toNat (b : Byte) : (lowBitFlag b).toNat = b.toNat % 2 := by
  rw [lowBitFlag, flagByte_getLsbD_toNat, Nat.pow_zero, Nat.div_one]

/-- Bit 7 is the whole of the byte above the lower seven. -/
theorem highBitFlag_toNat (b : Byte) : (highBitFlag b).toNat = b.toNat / 128 := by
  have := b.isLt
  rw [highBitFlag, flagByte_getLsbD_toNat]
  omega

theorem byte_sub_toNat (a b : Byte) : (a - b).toNat = (a.toNat + 256 - b.toNat) % 256 := by
  have := b.isLt
  rw [BitVec.toNat_sub]
  omega

theorem byte_shiftRight_one_toNat (b : Byte) : (b >>> 1).toNat = b.toNat / 2 := by
  rw [BitVec.toNat_ushiftRight, Nat.shiftRight_one]

theorem byte_shiftLeft_one_toNat (b : Byte) : (b <<< 1).toNat = 2 * b.toNat % 256 := by
  rw [BitVec.toNat_shiftLeft, Nat.shiftLeft_eq, Nat.mul_comm]

/-- A subtraction borrows exactly when adding the subtrahend back carries, so the two flags are opposite (R143). -/
theorem noBorrowFlag_add_carryFlag_sub (a b : Byte) : (noBorrowFlag a b).toNat + (carryFlag (a - b) b).toNat = 1 := by
  have := a.isLt
  have := b.isLt
  rw [noBorrowFlag_toNat, carryFlag_toNat, byte_sub_toNat]
  by_cases h : a.toNat ≥ b.toNat
  · rw [if_pos h, if_neg (by omega)]
  · rw [if_neg h, if_pos (by omega)]

theorem State.setV_completed_v (s : State) (x : RegNo) (b : Byte) : (s.setV x b).completed.v x = b := by simp

/-- A completed write of V[x] leaves the other registers and the other parts as they are. -/
theorem State.setV_completed_rest (s : State) (x : RegNo) (b : Byte) :
    (∀ r, r ≠ x → (s.setV x b).completed.v r = s.v r) ∧
    FrameExcept [.V, .outputs] s (s.setV x b).completed ∧ ReportsOne (s.setV x b).completed :=
  ⟨fun r hr => by simp [hr], by simp [frameExcept_iff], State.completed_reportsOne _⟩

section
variable {s t : State} {x : RegNo} {result flag : Byte} (ht : t = (s.setResultAndFlag x result flag).completed)
include ht

theorem State.v_of_resultAndFlag (r : RegNo) : t.v r = if r = 0xF#4 then flag else if r = x then result else s.v r := by
  rw [ht, State.v_completed, State.v_setResultAndFlag]

theorem State.resultAndFlag_frame : FrameExcept [.V, .outputs] s t := by
  subst ht
  simp [frameExcept_iff]

/-- With x other than 15 both the result and the flag can be read back (R131). -/
theorem State.resultAndFlag_answers (hx : x ≠ 0xF#4) {n f : Nat} (hn : result.toNat = n) (hf : flag.toNat = f) :
    (t.v x).toNat = n ∧ (t.v 0xF#4).toNat = f ∧
    (∀ r, r ≠ x → r ≠ 0xF#4 → t.v r = s.v r) ∧ FrameExcept [.V, .outputs] s t ∧ ReportsOne t := by
  have hv := State.v_of_resultAndFlag ht
  refine ⟨?result, ?flag, ?others, State.resultAndFlag_frame ht, ht ▸ State.completed_reportsOne _⟩
  case result => rw [hv, if_neg hx, if_pos rfl, hn]
  case flag => rw [hv, if_pos rfl, hf]
  case others =>
    intro r hrx hrf
    rw [hv, if_neg hrf, if_neg hrx]

/-- With x = 15 the flag, written last, is what remains (R131, D7). -/
theorem State.resultAndFlag_answers_vf (hx : x = 0xF#4) {f : Nat} (hf : flag.toNat = f) :
    (t.v 0xF#4).toNat = f ∧
    (∀ r, r ≠ 0xF#4 → t.v r = s.v r) ∧ FrameExcept [.V, .outputs] s t ∧ ReportsOne t := by
  have hv := State.v_of_resultAndFlag ht
  refine ⟨?flag, ?others, State.resultAndFlag_frame ht, ht ▸ State.completed_reportsOne _⟩
  case flag => rw [hv, if_pos rfl, hf]
  case others =>
    intro r hr
    rw [hv, if_neg hr, if_neg (hx ▸ hr)]

end

end Sys2Proof.Machine
end

section
/-! The statements of 43_alu.md. -/
namespace Sys2Proof.Machine

/-- Settles O45: 8XY4 adds back the V[Y] that 8XY5 took away and left unchanged. -/
theorem subtractThenAddRestores : Obligations.SubtractThenAddRestores := by
  intro s t u x y hxy hx hy hsub hadd
  have ht := State.v_of_resultAndFlag (Host.Outcome.next.inj hsub).symm
  have hu := State.v_of_resultAndFlag (Host.Outcome.next.inj hadd).symm
  have hdiff : t.v x = s.v x - s.v y := by rw [ht, if_neg hx, if_pos rfl]
  have hkept : t.v y = s.v y := by rw [ht, if_neg hy, if_neg hxy.symm]
  constructor
  · rw [hu, if_neg hx, if_pos rfl, hdiff, hkept, BitVec.sub_add_cancel]
  · rw [ht, if_pos rfl, hu, if_pos rfl, hdiff, hkept]
    exact noBorrowFlag_add_carryFlag_sub _ _

/-- Settles O39: six writes of one register, which differ in the value alone. -/
theorem loadsAndLogicWriteOneRegister : Obligations.LoadsAndLogicWriteOneRegister := by
  intro s x y nn
  refine ⟨⟨_, rfl, ?op6XNN, s.setV_completed_rest x _⟩, ⟨_, rfl, ?op7XNN, s.setV_completed_rest x _⟩,
    ⟨_, rfl, ?op8XY0, s.setV_completed_rest x _⟩, ⟨_, rfl, fun k _ => ?op8XY1, s.setV_completed_rest x _⟩,
    ⟨_, rfl, fun k _ => ?op8XY2, s.setV_completed_rest x _⟩, ⟨_, rfl, fun k _ => ?op8XY3, s.setV_completed_rest x _⟩⟩
  case op6XNN => exact s.setV_completed_v x _
  case op7XNN => rw [State.setV_completed_v, BitVec.toNat_add]
  case op8XY0 => exact s.setV_completed_v x _
  case op8XY1 => rw [State.setV_completed_v, BitVec.getLsbD_or]
  case op8XY2 => rw [State.setV_completed_v, BitVec.getLsbD_and]
  case op8XY3 => rw [State.setV_completed_v, BitVec.getLsbD_xor]

/-- Settles O40: the result is the sum and the flag its carry. -/
theorem addSetsCarry : Obligations.AddSetsCarry := fun _ _ _ hx =>
  ⟨_, rfl, State.resultAndFlag_answers rfl hx (BitVec.toNat_add ..) (carryFlag_toNat ..)⟩

/-- Settles O41: the result is V[X] - V[Y] and the flag says that nothing was borrowed. -/
theorem subtractSetsNoBorrow : Obligations.SubtractSetsNoBorrow := fun _ _ _ hx =>
  ⟨_, rfl, State.resultAndFlag_answers rfl hx (byte_sub_toNat ..) (noBorrowFlag_toNat ..)⟩

/-- Settles O42: as for 8XY5, with the operands exchanged. -/
theorem reverseSubtractSetsNoBorrow : Obligations.ReverseSubtractSetsNoBorrow := fun _ _ _ hx =>
  ⟨_, rfl, State.resultAndFlag_answers rfl hx (byte_sub_toNat ..) (noBorrowFlag_toNat ..)⟩

/-- Settles O43: halving keeps bit 0 in the flag, doubling bit 7. -/
theorem shiftsKeepTheBitShiftedOut : Obligations.ShiftsKeepTheBitShiftedOut := fun _ _ _ hx =>
  ⟨⟨_, rfl, State.resultAndFlag_answers rfl hx (byte_shiftRight_one_toNat _) (lowBitFlag_toNat _)⟩,
    ⟨_, rfl, State.resultAndFlag_answers rfl hx (byte_shiftLeft_one_toNat _) (highBitFlag_toNat _)⟩⟩

/-- Settles O44: for each of the five the flag is written after the result. -/
theorem flagWinsWhenXIsVF : Obligations.FlagWinsWhenXIsVF := fun _ _ =>
  ⟨⟨_, rfl, State.resultAndFlag_answers_vf rfl rfl (carryFlag_toNat ..)⟩,
    ⟨_, rfl, State.resultAndFlag_answers_vf rfl rfl (noBorrowFlag_toNat ..)⟩,
    ⟨_, rfl, State.resultAndFlag_answers_vf rfl rfl (lowBitFlag_toNat _)⟩,
    ⟨_, rfl, State.resultAndFlag_answers_vf rfl rfl (noBorrowFlag_toNat ..)⟩,
    ⟨_, rfl, State.resultAndFlag_answers_vf rfl rfl (highBitFlag_toNat _)⟩⟩

end Sys2Proof.Machine
end

section
/-! SUPPORT. Index register and memory (44_index_memory.md R150 to R156): the new values of I as numbers, and what FX33,
FX55 and FX65 answer once their range is known to lie in memory. -/
namespace Sys2Proof.Machine

@[simp] theorem zextByte_toNat (b : Byte) : (zextByte b).toNat = b.toNat :=
  BitVec.toNat_setWidth_of_le (by decide)

/-- FX29 never wraps: 5 times 0xFF fits 16 bits (R152, D25). -/
theorem fontBase_add_five_mul_toNat (b : Byte) : (Config.fontBase + 5#16 * zextByte b).toNat = 5 * b.toNat := by
  have := b.isLt
  rw [BitVec.zero_add, BitVec.toNat_mul, zextByte_toNat, BitVec.toNat_ofNat]
  omega

/-- I past a range that lies in memory does not wrap (R154, R155). -/
theorem State.indexPast_toNat (s : State) {x : RegNo} (h : s.I.toNat + x.toNat ≤ 0xFFF) :
    (s.indexPast x).toNat = s.I.toNat + x.toNat + 1 := by
  rw [State.indexPast, BitVec.toNat_add, BitVec.toNat_ofNat]
  omega

/-- A read that fits in memory does not fault (R55). -/
theorem State.readRangeFault_eq_none (s : State) {n : Nat} (h : s.I.toNat + n ≤ 0x1000) : s.readRangeFault n = none := by
  rcases s.readRangeFault_cases n with ⟨⟨-, _⟩, -⟩ | ⟨-, e⟩
  · omega
  · exact e

/-- A completed write of I writes I and the outputs alone. -/
theorem State.setI_completed_frame (s : State) (w : Word) : FrameExcept [.I, .outputs] s (s.setI w).completed := by
  simp [frameExcept_iff]

/-! The three transfers once their check has passed (R153, R154, R155). -/

/-- The state after a completed FX33. -/
def State.bcdStored (s : State) (x : RegNo) : State := (s.storeBytes s.I.toNat (bcdDigits (s.v x))).completed

/-- The state after a completed FX55. -/
def State.regsStored (s : State) (x : RegNo) : State :=
  ((s.storeBytes s.I.toNat (s.regsUpTo x)).setI (s.indexPast x)).completed

/-- The state after a completed FX65. -/
def State.regsLoaded (s : State) (x : RegNo) : State := ((s.loadRegs x).setI (s.indexPast x)).completed

theorem exec_opFX33_of_inside {s : State} (x : RegNo) (hlo : 0x050 ≤ s.I.toNat) (hhi : s.I.toNat + 2 ≤ 0xFFF) :
    exec (.opFX33 x) s = .next (s.bcdStored x) := by
  show Host.Outcome.next (s.unlessFault (s.storeRangeFault 3) (s.bcdStored x)) = _
  rw [s.storeRangeFault_eq_none (by omega) hlo (by omega), State.unlessFault_none]

theorem exec_opFX55_of_inside {s : State} {x : RegNo} (hlo : 0x050 ≤ s.I.toNat) (hhi : s.I.toNat + x.toNat ≤ 0xFFF) :
    exec (.opFX55 x) s = .next (s.regsStored x) := by
  show Host.Outcome.next (s.unlessFault (s.storeRangeFault (x.toNat + 1)) (s.regsStored x)) = _
  rw [s.storeRangeFault_eq_none (by omega) hlo (by omega), State.unlessFault_none]

theorem exec_opFX65_of_inside {s : State} {x : RegNo} (h : s.I.toNat + x.toNat ≤ 0xFFF) :
    exec (.opFX65 x) s = .next (s.regsLoaded x) := by
  show Host.Outcome.next (s.unlessFault (s.readRangeFault (x.toNat + 1)) (s.regsLoaded x)) = _
  rw [s.readRangeFault_eq_none (by omega), State.unlessFault_none]

theorem State.bcdStored_frame (s : State) (x : RegNo) : FrameExcept [.mem, .outputs] s (s.bcdStored x) := by
  simp [frameExcept_iff, State.bcdStored]

theorem State.regsStored_frame (s : State) (x : RegNo) : FrameExcept [.mem, .I, .outputs] s (s.regsStored x) := by
  simp [frameExcept_iff, State.regsStored]

theorem State.regsLoaded_frame (s : State) (x : RegNo) : FrameExcept [.V, .I, .outputs] s (s.regsLoaded x) := by
  simp [frameExcept_iff, State.regsLoaded]

/-- FX33 in memory: the byte at I + i is digit i (R153). -/
theorem State.read_bcdStored {s : State} (x : RegNo) {i : Nat} (hwf : Memory.wf s.mem = true)
    (hhi : s.I.toNat + 2 ≤ 0xFFF) (hi : i < 3) :
    Memory.read (s.bcdStored x).mem (s.I.toNat + i) = (bcdDigits (s.v x))[i] :=
  Memory.read_writeBytes_inside (bcdDigits (s.v x)) s.mem hwf (Nat.lt_succ_of_le hhi) hi

/-- The digits as numbers: each fits its byte (R153). -/
theorem bcdDigits_toNat (v : Byte) :
    (bcdDigits v)[0].toNat = v.toNat / 100 ∧ (bcdDigits v)[1].toNat = v.toNat / 10 % 10 ∧
    (bcdDigits v)[2].toNat = v.toNat % 10 := by
  have := v.isLt
  refine ⟨Nat.mod_eq_of_lt ?_, Nat.mod_eq_of_lt ?_, Nat.mod_eq_of_lt ?_⟩ <;> omega

/-- FX55 in memory: the byte at I + r is V[r] (R154). -/
theorem State.read_regsStored {s : State} {x r : RegNo} (hwf : Memory.wf s.mem = true)
    (hhi : s.I.toNat + x.toNat ≤ 0xFFF) (hr : r.toNat ≤ x.toNat) :
    Memory.read (s.regsStored x).mem (s.I.toNat + r.toNat) = s.v r := by
  have hfit : s.I.toNat + (s.regsUpTo x).length ≤ Config.memSize := by
    rw [State.regsUpTo_length]
    exact Nat.lt_succ_of_le hhi
  have hlen : r.toNat < (s.regsUpTo x).length := by
    rw [State.regsUpTo_length]
    exact Nat.lt_succ_of_le hr
  exact (Memory.read_writeBytes_inside (s.regsUpTo x) s.mem hwf hfit hlen).trans (s.regsUpTo_getElem x r hr)

theorem State.v_regsLoaded (s : State) (x r : RegNo) :
    (s.regsLoaded x).v r = if r.toNat ≤ x.toNat then Memory.read s.mem (s.I.toNat + r.toNat) else s.v r :=
  s.v_loadRegs x r

end Sys2Proof.Machine
end

section
/-! The statements of 44_index_memory.md. -/
namespace Sys2Proof.Machine

/-- Settles O47: one write of I. -/
theorem loadIndexLiteral : Obligations.LoadIndexLiteral := by
  intro s nnn
  exact ⟨_, rfl, zextAddr_toNat nnn, s.setI_completed_frame _, State.completed_reportsOne _⟩

/-- Settles O48: two writes of I, by a sum that may wrap and a product that cannot. -/
theorem indexArithmetic : Obligations.IndexArithmetic := by
  intro s x
  refine ⟨⟨_, rfl, ?opFX1E, s.setI_completed_frame _, State.completed_reportsOne _⟩,
    ⟨_, rfl, ?opFX29, s.setI_completed_frame _, State.completed_reportsOne _⟩⟩
  case opFX1E => exact (BitVec.toNat_add ..).trans (by rw [zextByte_toNat])
  case opFX29 => exact fontBase_add_five_mul_toNat _

/-- Settles O49: the three digits are written one after the other from I on. -/
theorem bcdStoreWritesThreeDigits : Obligations.BcdStoreWritesThreeDigits := by
  intro s x hwf hlo hhi
  obtain ⟨hundreds, tens, ones⟩ := bcdDigits_toNat (s.v x)
  have hread {i : Nat} (hi : i < 3) := congrArg BitVec.toNat (State.read_bcdStored x hwf hhi hi)
  refine ⟨s.bcdStored x, exec_opFX33_of_inside x hlo hhi, (hread (by decide)).trans hundreds,
    (hread (by decide)).trans tens, (hread (by decide)).trans ones, fun a ha => ?outside, s.bcdStored_frame x,
    State.completed_reportsOne _⟩
  case outside => exact Memory.read_writeBytes_outside _ _ (by rw [bcdDigits_length]; omega)

/-- Settles O50: the register list is written from I on, and I moves by its length. -/
theorem storeRegistersWritesTheRange : Obligations.StoreRegistersWritesTheRange := by
  intro s x hwf hlo hhi
  refine ⟨s.regsStored x, exec_opFX55_of_inside hlo hhi, fun r hr => State.read_regsStored hwf hhi hr,
    fun a ha => ?outside, s.indexPast_toNat hhi, s.regsStored_frame x, State.completed_reportsOne _⟩
  case outside => exact Memory.read_writeBytes_outside _ _ (by rw [State.regsUpTo_length]; omega)

/-- Settles O51: a register up to X is loaded, a register above X is kept. -/
theorem loadRegistersReadsTheRange : Obligations.LoadRegistersReadsTheRange := by
  intro s x h
  refine ⟨s.regsLoaded x, exec_opFX65_of_inside h, fun r hr => ?loaded, fun r hr => ?kept, s.indexPast_toNat h,
    s.regsLoaded_frame x, State.completed_reportsOne _⟩
  case loaded => rw [State.v_regsLoaded, if_pos hr]
  case kept => rw [State.v_regsLoaded, if_neg (by omega)]

/-- Settles O52: the load reads the bytes that the store wrote (O50, O51), since ANNN sets I back and leaves memory and
registers alone (O47). -/
theorem storeThenLoadRestoresRegisters : Obligations.StoreThenLoadRestoresRegisters := by
  intro s x nnn hwf hI hlo hhi
  obtain ⟨t, hstore, hbytes, -, -, hst, -⟩ := storeRegistersWritesTheRange s x hwf hlo hhi
  obtain ⟨u, hset, huI, htu, -⟩ := loadIndexLiteral t nnn
  have hback : u.I.toNat = s.I.toNat := huI.trans hI.symm
  obtain ⟨w, hload, hloaded, hkept, hwI, -⟩ := loadRegistersReadsTheRange u x (by omega)
  refine ⟨t, u, w, hstore, hset, hload, fun r => ?registers, by rw [hwI, hback]⟩
  by_cases hr : r.toNat ≤ x.toNat
  · calc w.v r = Memory.read u.mem (s.I.toNat + r.toNat) := by rw [hloaded r hr, hback]
      _ = Memory.read t.mem (s.I.toNat + r.toNat) := htu .mem (by decide) _
      _ = s.v r := hbytes r hr
  · calc w.v r = u.v r := hkept r (by omega)
      _ = t.v r := htu .V (by decide) r
      _ = s.v r := hst .V (by decide) r

end Sys2Proof.Machine
end

section
/-! SUPPORT. Drawing (45_display.md R160, R161): the model's sprite bit and collision against `State.SpriteOver`, and what
DXYN answers with and without its sprite in memory. -/
namespace Sys2Proof.Machine

/-- A bit of a sprite row is a bit of the byte at I + r, and 0 from row n on (R161). -/
theorem State.spriteRows_getLsbD_iff (s : State) (n : Nibble) (r k : Nat) :
    ((s.spriteRows n).getD r 0x00#8).getLsbD k = true ↔
      r < n.toNat ∧ (Memory.read s.mem (s.I.toNat + r)).getLsbD k = true := by
  by_cases hr : r < n.toNat
  · have hlen : r < (s.spriteRows n).length := hr.trans_eq (Memory.readBytes_length ..).symm
    rw [List.getD_eq_getElem _ _ hlen]
    simp [State.spriteRows, hr]
  · have hlen : (s.spriteRows n).length ≤ r := (Memory.readBytes_length ..).trans_le (Nat.le_of_not_lt hr)
    rw [List.getD_eq_default _ _ hlen]
    simp [hr]

/-- The sprite bit over a pixel, its row and bit number measured from the origin (R161). -/
theorem State.spriteBit_iff_spriteOver (s : State) (x y : RegNo) (n : Nibble) (px : Fin 64) (py : Fin 32) :
    spriteBit (s.spriteRows n) (s.originColumn x) (s.originRow y) px.val py.val = true ↔ s.SpriteOver x y n px py := by
  simp only [spriteBit, Bool.and_eq_true, decide_eq_true_eq, State.spriteRows_getLsbD_iff, and_assoc]
  constructor
  · rintro ⟨hy, hx, hlt, hr, hbit⟩
    exact ⟨py.val - s.originRow y, px.val - s.originColumn x, hr, by omega, (Nat.add_sub_of_le hx).symm,
      (Nat.add_sub_of_le hy).symm, hbit⟩
  · rintro ⟨r, b, hr, hb, hpx, hpy, hbit⟩
    have hx : px.val = s.originColumn x + b := hpx
    have hy : py.val = s.originRow y + r := hpy
    rw [hx, hy, Nat.add_sub_cancel_left, Nat.add_sub_cancel_left]
    exact ⟨by omega, by omega, by omega, hr, hbit⟩

/-- A set pixel at a column and row lies on the display; past its edges there is none (R161). -/
theorem State.pixelOrClear_display_iff (s : State) (c r : Nat) :
    pixelOrClear s.display c r = true ↔
      ∃ (px : Fin 64) (py : Fin 32), px.val = c ∧ py.val = r ∧ s.pixel px py = true := by
  constructor
  · intro h
    unfold pixelOrClear at h
    split at h
    · rename_i hin
      exact ⟨⟨c, hin.2⟩, ⟨r, hin.1⟩, rfl, rfl, h⟩
    · cases h
  · rintro ⟨px, py, rfl, rfl, h⟩
    rw [pixelOrClear, dif_pos ⟨py.isLt, px.isLt⟩]
    exact h

/-- A set pixel lies under a 1 bit of the sprite (R161). -/
def State.Collides (s : State) (x y : RegNo) (n : Nibble) : Prop :=
  ∃ px py, s.SpriteOver x y n px py ∧ s.pixel px py = true

/-- The model looks for a collision by rows and bits, the rule by pixels: a row and a bit of the unclipped sprite name one
pixel (R161). -/
theorem State.collisionFlag_eq_flagByte (s : State) (x y : RegNo) (n : Nibble) :
    ∃ c, collisionFlag s.display (s.spriteRows n) (s.originColumn x) (s.originRow y) = flagByte c ∧
      (c = true ↔ s.Collides x y n) := by
  refine ⟨_, rfl, ?_⟩
  have hlen : (s.spriteRows n).length = n.toNat := Memory.readBytes_length ..
  simp only [hlen, List.any_eq_true, List.mem_range, Bool.and_eq_true, State.pixelOrClear_display_iff,
    State.spriteRows_getLsbD_iff]
  constructor
  · rintro ⟨r, hr, b, hb, ⟨px, py, hx, hy, hset⟩, -, hbit⟩
    exact ⟨px, py, ⟨r, b, hr, hb, hx, hy, hbit⟩, hset⟩
  · rintro ⟨px, py, ⟨r, b, hr, hb, hx, hy, hbit⟩, hset⟩
    exact ⟨r, hr, b, hb, ⟨px, py, hx, hy, hset⟩, hr, hbit⟩

/-- The state after a completed DXYN. -/
def State.drawn (s : State) (x y : RegNo) (n : Nibble) : State :=
  ((s.setDisplay (drawSprite s.display (s.spriteRows n) (s.originColumn x) (s.originRow y))).setV 0xF#4
    (collisionFlag s.display (s.spriteRows n) (s.originColumn x) (s.originRow y))).completedDrawing

/-- DXYN takes the range fault and draws nothing, or draws (R55, R161). -/
theorem exec_opDXYN_cases (s : State) (x y : RegNo) (n : Nibble) :
    (s.PastMemory n.toNat ∧ ∃ f, exec (.opDXYN x y n) s = .next (s.takeFault f)) ∨
    (¬ s.PastMemory n.toNat ∧ exec (.opDXYN x y n) s = .next (s.drawn x y n)) := by
  have hexec : exec (.opDXYN x y n) s = .next (s.unlessFault (s.readRangeFault n.toNat) (s.drawn x y n)) := rfl
  rcases s.readRangeFault_cases n.toNat with ⟨hpast, e⟩ | ⟨hpast, e⟩ <;> rw [hexec, e]
  · exact .inl ⟨hpast, _, rfl⟩
  · exact .inr ⟨hpast, rfl⟩

theorem exec_opDXYN_of_inside {s : State} (x y : RegNo) {n : Nibble} (h : n.toNat = 0 ∨ s.I.toNat + n.toNat ≤ 0x1000) :
    exec (.opDXYN x y n) s = .next (s.drawn x y n) := by
  rcases exec_opDXYN_cases s x y n with ⟨⟨_, _⟩, -⟩ | ⟨-, he⟩
  · omega
  · exact he

theorem State.pixel_drawn (s : State) (x y : RegNo) (n : Nibble) (px : Fin 64) (py : Fin 32) :
    (s.drawn x y n).pixel px py =
      (s.pixel px py ^^ spriteBit (s.spriteRows n) (s.originColumn x) (s.originRow y) px.val py.val) :=
  s.pixel_setDisplay_drawSprite s.display _ _ _ px py

section
variable {s : State} {x y : RegNo} {n : Nibble} {px : Fin 64} {py : Fin 32}

theorem State.pixel_drawn_of_spriteOver (h : s.SpriteOver x y n px py) :
    (s.drawn x y n).pixel px py = !s.pixel px py := by
  rw [State.pixel_drawn, (s.spriteBit_iff_spriteOver x y n px py).2 h, Bool.xor_true]

theorem State.pixel_drawn_of_not_spriteOver (h : ¬ s.SpriteOver x y n px py) :
    (s.drawn x y n).pixel px py = s.pixel px py := by
  rw [← State.spriteBit_iff_spriteOver, Bool.not_eq_true] at h
  rw [State.pixel_drawn, h, Bool.xor_false]

/-- A sprite lies in eight columns and n rows from its origin (R161). -/
theorem State.SpriteOver.in_rectangle (h : s.SpriteOver x y n px py) :
    (s.v x).toNat % 64 ≤ px.val ∧ px.val ≤ (s.v x).toNat % 64 + 7 ∧
    (s.v y).toNat % 32 ≤ py.val ∧ py.val < (s.v y).toNat % 32 + n.toNat := by
  obtain ⟨r, b, hr, hb, hx, hy, -⟩ := h
  omega

end

/-- After a draw VF tells a collision (R161). -/
theorem State.vf_drawn (s : State) (x y : RegNo) (n : Nibble) :
    ∃ c, (s.drawn x y n).v 0xF#4 = flagByte c ∧ (c = true ↔ s.Collides x y n) := by
  rw [State.drawn, State.v_completedDrawing, State.v_setV, if_pos rfl]
  exact s.collisionFlag_eq_flagByte x y n

theorem State.v_drawn_of_ne (s : State) (x y : RegNo) (n : Nibble) {r : RegNo} (hr : r ≠ 0xF#4) :
    (s.drawn x y n).v r = s.v r := by
  rw [State.drawn, State.v_completedDrawing, State.v_setV, if_neg hr, State.v_setDisplay]

theorem State.drawn_frame (s : State) (x y : RegNo) (n : Nibble) :
    FrameExcept [.V, .display, .outputs] s (s.drawn x y n) := by
  simp [frameExcept_iff, State.drawn]

/-- Where a sprite lies depends on its two coordinates, on I and on memory alone (R161). -/
theorem State.spriteOver_congr {s t : State} {x y : RegNo} (n : Nibble) (hx : t.v x = s.v x) (hy : t.v y = s.v y)
    (hI : t.I = s.I) (hmem : ∀ a, Memory.read t.mem a = Memory.read s.mem a) (px : Fin 64) (py : Fin 32) :
    t.SpriteOver x y n px py ↔ s.SpriteOver x y n px py := by
  simp only [State.SpriteOver, hx, hy, hI, hmem]

end Sys2Proof.Machine
end

section
/-! The statements of 45_display.md. -/
namespace Sys2Proof.Machine

/-- Settles O53: the display is replaced by the blank one. -/
theorem clearScreenClearsEveryPixel : Obligations.ClearScreenClearsEveryPixel := by
  intro s
  exact ⟨_, rfl, s.pixel_setDisplay_blank, by simp [frameExcept_iff], rfl, rfl⟩

/-- Settles O54: in memory the sprite is drawn, and VF is the collision flag. -/
theorem drawXorsTheSprite : Obligations.DrawXorsTheSprite := by
  intro s x y n h
  obtain ⟨c, hvf, hc⟩ := s.vf_drawn x y n
  refine ⟨s.drawn x y n, exec_opDXYN_of_inside x y h, fun px py => State.pixel_drawn_of_spriteOver,
    fun px py => State.pixel_drawn_of_not_spriteOver, ?collision, ?noCollision, fun r => s.v_drawn_of_ne x y n,
    s.drawn_frame x y n, rfl, rfl⟩
  case collision => rw [hvf, flagByte_eq_one]; exact hc
  case noCollision => rw [hvf, flagByte_eq_zero, ← Bool.not_eq_true]; exact not_congr hc

/-- Settles O55: by O54 twice, the second sprite lying where the first did, since only VF, the display and the outputs
have changed. -/
theorem drawTwiceRestoresTheDisplay : Obligations.DrawTwiceRestoresTheDisplay := by
  intro s x y n hx hy hin
  obtain ⟨t, hdraw, hover, hoff, -, -, hregs, hframe, -⟩ := drawXorsTheSprite s x y n hin
  have hI : t.I = s.I := hframe .I (by decide)
  have hsame := State.spriteOver_congr n (hregs x hx) (hregs y hy) hI (hframe .mem (by decide))
  obtain ⟨u, hredraw, hover', hoff', hflag, -⟩ := drawXorsTheSprite t x y n (by rw [hI]; exact hin)
  simp only [hsame] at hover' hoff' hflag
  refine ⟨t, u, hdraw, hredraw, fun px py => ?restored, hflag, fun hclear => hflag.trans ?fromClear⟩
  case restored =>
    by_cases h : s.SpriteOver x y n px py
    · rw [hover' px py h, hover px py h, Bool.not_not]
    · rw [hoff' px py h, hoff px py h]
  case fromClear =>
    have hset (px py) (h : s.SpriteOver x y n px py) : t.pixel px py = true := by
      rw [hover px py h, hclear px py h, Bool.not_false]
    exact exists₂_congr fun px py => and_iff_left_of_imp (hset px py)

/-- Settles O56: a faulting draw changes no pixel, a completed one only pixels under the sprite. -/
theorem drawStaysInItsRectangle : Obligations.DrawStaysInItsRectangle := by
  intro s t x y n px py h hne
  rcases exec_opDXYN_cases s x y n with ⟨-, f, he⟩ | ⟨-, he⟩
  · cases Host.Outcome.next.inj (he.symm.trans h)
    exact absurd (s.pixel_takeFault f px py) hne
  · cases Host.Outcome.next.inj (he.symm.trans h)
    have hover : s.SpriteOver x y n px py := by
      by_contra hoff
      exact hne (State.pixel_drawn_of_not_spriteOver hoff)
    obtain ⟨hleft, hright, htop, hbottom⟩ := hover.in_rectangle
    exact ⟨hleft, le_min hright (by omega), htop, hbottom, by omega⟩

end Sys2Proof.Machine
end

section
/-! SUPPORT. Random, timers and the key wait (46_timers_keys_random.md R170 to R174): what an instruction that asks the
environment leaves alone, two draws in a row, and what a step adds to a completed instruction. -/
namespace Sys2Proof.Machine

/-- One write of V[x] with the environment moved on, whatever the instruction then reports (R170, R172). -/
theorem State.setV_setEnv_frame {s t : State} {x : RegNo} {b : Byte} {e : Env}
    (ht : t = ((s.setV x b).setEnv e).completed ∨ t = ((s.setV x b).setEnv e).completedBlocking) :
    t.v x = b ∧ (∀ r, r ≠ x → t.v r = s.v r) ∧ t.env = e ∧ FrameExcept [.V, .outputs, .env] s t := by
  rcases ht with rfl | rfl
  all_goals exact ⟨by simp, fun r hr => by simp [hr], rfl, by simp [frameExcept_iff]⟩

@[simp] theorem zextKey_toNat (k : Key) : (zextKey k).toNat = k.toNat :=
  BitVec.toNat_setWidth_of_le (by decide)

/-- An environment whose next random bytes are `bs` (R35, log 1). -/
def Env.randomAnswers (bs : List Byte) : Env := { Env.atReset with randomBytes := bs }

@[simp] theorem Env.randomByte_randomAnswers (b : Byte) (bs : List Byte) :
    (Env.randomAnswers (b :: bs)).randomByte = b := rfl

@[simp] theorem Env.randomByte_afterRandom_randomAnswers (b b' : Byte) (bs : List Byte) :
    (Env.randomAnswers (b :: b' :: bs)).afterRandom.randomByte = b' := rfl

/-- The state after CXNN. -/
def State.randomDrawn (s : State) (x : RegNo) (nn : Byte) : State :=
  ((s.setV x (s.env.randomByte &&& nn)).setEnv s.env.afterRandom).completed

theorem exec_opCXNN (s : State) (x : RegNo) (nn : Byte) : exec (.opCXNN x nn) s = .next (s.randomDrawn x nn) := rfl

@[simp] theorem State.v_randomDrawn (s : State) (x : RegNo) (nn : Byte) :
    (s.randomDrawn x nn).v x = s.env.randomByte &&& nn :=
  (State.setV_setEnv_frame (.inl rfl)).1

@[simp] theorem State.randomDrawn_env (s : State) (x : RegNo) (nn : Byte) :
    (s.randomDrawn x nn).env = s.env.afterRandom := rfl

/-- The state after an FX0A that found a press of key `k`. -/
def State.keyStored (s : State) (x : RegNo) (k : Key) : State :=
  ((s.setV x (zextKey k)).setEnv s.env.afterNextKey).completedBlocking

/-- FX0A completes when a press is presented (R172). -/
theorem exec_opFX0A_of_press {s : State} (x : RegNo) {k : Key} (hk : s.env.nextKey = some k) :
    exec (.opFX0A x) s = .next (s.keyStored x k) :=
  congrArg (fun found => Host.Outcome.next (s.keyWait x found)) hk

/-- The step of an instruction that completes in `p`: its registers are those of `p`, its timers those of `p` after the
tick of an 8th step (R94, R95). -/
theorem State.Fetches.step_of_completed {s p : State} {i : Instr} (h : s.Fetches i)
    (he : exec i s.advancePc = .next p.completed) (hsteps : p.steps = s.steps) :
    ∃ u, step s = .next u ∧ (∀ r, u.v r = p.v r) ∧
      (u.DT.toNat = if s.steps.val = 7 then p.DT.toNat - 1 else p.DT.toNat) ∧
      (u.ST.toNat = if s.steps.val = 7 then p.ST.toNat - 1 else p.ST.toNat) := by
  obtain ⟨hf, hd⟩ := h
  obtain ⟨-, hcounted⟩ := eighthStepTicksTheTimers s i p.completed hf hd he
  obtain ⟨u, hstep, -, hDT, hST, hframe⟩ := hcounted (by simp)
  rw [State.completed_steps, hsteps] at hDT hST
  exact ⟨u, hstep, hframe .V (by decide), hDT, hST⟩

/-- A completed write of DT leaves the other parts as they are. -/
theorem State.setDT_completed_frame (s : State) (b : Byte) : FrameExcept [.DT, .outputs] s (s.setDT b).completed := by
  simp [frameExcept_iff]

/-- A completed write of ST leaves the other parts as they are. -/
theorem State.setST_completed_frame (s : State) (b : Byte) : FrameExcept [.ST, .outputs] s (s.setST b).completed := by
  simp [frameExcept_iff]

end Sys2Proof.Machine
end

section
/-! The statements of 46_timers_keys_random.md. -/
namespace Sys2Proof.Machine

/-- Settles O57: the byte drawn goes under the mask, and an environment that lines up two values already under it makes two
draws give just those. -/
theorem randomByteUnderMask : Obligations.RandomByteUnderMask := by
  intro s x nn
  refine ⟨?oneDraw, fun v v' hv hv' => ?twoDraws⟩
  case oneDraw =>
    obtain ⟨hvx, hothers, henv, hframe⟩ := State.setV_setEnv_frame (t := s.randomDrawn x nn) (.inl rfl)
    have hmask : (s.randomDrawn x nn).v x &&& ~~~nn = 0x00#8 := by
      rw [hvx, BitVec.and_assoc, BitVec.and_not_self]
      exact BitVec.and_zero
    exact ⟨_, exec_opCXNN s x nn, hvx, hmask, hothers, henv, hframe, State.completed_reportsOne _⟩
  case twoDraws =>
    exact ⟨Env.randomAnswers [v, v'], _, _, exec_opCXNN _ x nn, exec_opCXNN _ x nn, by simpa using hv,
      by simpa using hv'⟩

/-- Settles O58: each of the three is one write; the tick comes after it, so FX07 keeps what it read and what FX15 or FX18
wrote is ticked. -/
theorem timerMoves : Obligations.TimerMoves := by
  refine ⟨fun s x => ⟨?readDT, ?writeDT, ?writeST⟩, fun s x hf => ⟨fun hd => ?stepFX07, fun hd => ?stepFX15,
    fun hd => ?stepFX18⟩⟩
  case readDT => exact ⟨_, rfl, s.setV_completed_v x _, s.setV_completed_rest x _⟩
  case writeDT => exact ⟨_, rfl, rfl, s.setDT_completed_frame _, State.completed_reportsOne _⟩
  case writeST => exact ⟨_, rfl, rfl, s.setST_completed_frame _, State.completed_reportsOne _⟩
  case stepFX07 =>
    obtain ⟨u, hstep, hv, hDT, -⟩ :=
      State.Fetches.step_of_completed (p := s.advancePc.setV x s.DT) ⟨hf, hd⟩ rfl rfl
    exact ⟨u, hstep, (hv x).trans (by simp), hDT⟩
  case stepFX15 =>
    obtain ⟨u, hstep, -, hDT, -⟩ :=
      State.Fetches.step_of_completed (p := s.advancePc.setDT (s.v x)) ⟨hf, hd⟩ rfl rfl
    exact ⟨u, hstep, hDT⟩
  case stepFX18 =>
    obtain ⟨u, hstep, -, -, hST⟩ :=
      State.Fetches.step_of_completed (p := s.advancePc.setST (s.v x)) ⟨hf, hd⟩ rfl rfl
    exact ⟨u, hstep, hST⟩

/-- Settles O59: with a press presented FX0A writes its code and reports BLOCKING. -/
theorem keyWaitStoresThePressedKey : Obligations.KeyWaitStoresThePressedKey := by
  intro s x k hk
  obtain ⟨hvx, hothers, henv, hframe⟩ := State.setV_setEnv_frame (t := s.keyStored x k) (.inr rfl)
  have hcode : ((s.keyStored x k).v x).toNat = k.toNat := by rw [hvx, zextKey_toNat]
  exact ⟨_, exec_opFX0A_of_press x hk, hcode, hothers, henv, rfl, rfl, hframe⟩

end Sys2Proof.Machine
end

section
/-! SUPPORT. Faults (60_exceptions.md R181 to R188): each check of an instruction as its row of the fault table, and the shape
that every instruction has, a check and an effect that faults nowhere. -/
namespace Sys2Proof.Machine

/-! Each check records a fault exactly when its row of the table says so (R181). -/

theorem State.popFault_eq_some_iff (s : State) (f : FaultRecord) :
    s.popFault = some f ↔ s.sp.val = 0 ∧ f = ⟨.emptyStack, 0x0000#16⟩ := by
  rcases s.popFault_cases with ⟨h, e⟩ | ⟨h, e⟩ <;> rw [e]
  · simp [h, eq_comm]
  · simp [h.ne']

theorem State.pushFault_eq_some_iff (s : State) (a : Word) (f : FaultRecord) :
    s.pushFault a = some f ↔ s.sp.val = 16 ∧ f = ⟨.stackOverflow, a⟩ := by
  rcases s.pushFault_cases a with ⟨h, e⟩ | ⟨h, e⟩ <;> rw [e]
  · simp [h, eq_comm]
  · simp [h.ne]

theorem State.readRangeFault_eq_some_iff (s : State) (n : Nat) (f : FaultRecord) :
    s.readRangeFault n = some f ↔
      s.PastMemory n ∧ f = ⟨.addressOutOfRange, BitVec.ofNat 16 (max s.I.toNat 0x1000)⟩ := by
  unfold State.PastMemory
  rcases s.readRangeFault_cases n with ⟨h, e⟩ | ⟨h, e⟩ <;> rw [e]
  · simp only [h, and_self, true_and, Option.some.injEq, eq_comm]
  · simp only [h, false_and, reduceCtorEq]

/-- No transfer is long enough to start in the font table and pass 0xFFF, so at most one of the two rows holds. -/
theorem State.storeRangeFault_eq_some_iff (s : State) {n : Nat} (hn : 1 ≤ n) (hshort : n ≤ 16) (f : FaultRecord) :
    s.storeRangeFault n = some f ↔
      (s.PastMemory n ∧ f = ⟨.addressOutOfRange, BitVec.ofNat 16 (max s.I.toNat 0x1000)⟩) ∨
        (s.I.toNat < 0x050 ∧ f = ⟨.fontWrite, s.I⟩) := by
  unfold State.PastMemory
  rcases s.storeRangeFault_cases n hn with ⟨hpast, e⟩ | ⟨hin, hfont, e⟩ | ⟨hin, hfont, e⟩ <;> rw [e]
  · have habove : ¬ s.I.toNat < 0x050 := by omega
    simp only [hn, hpast, habove, and_self, true_and, false_and, or_false, Option.some.injEq, eq_comm]
  · have hinside : ¬ s.I.toNat + n > 0x1000 := by omega
    simp only [hinside, hfont, and_false, false_and, true_and, false_or, Option.some.injEq, eq_comm]
  · have hinside : ¬ s.I.toNat + n > 0x1000 := by omega
    have habove : ¬ s.I.toNat < 0x050 := by omega
    simp only [hinside, habove, and_false, false_and, or_self, reduceCtorEq]

@[simp] theorem State.keyWait_status (s : State) (x : RegNo) (o : Option Key) : (s.keyWait x o).status = s.status := by
  cases o <;> rfl

variable {i : Instr} {s t : State} {f : FaultRecord}

/-- Every instruction is a check, which records what its row of the fault table says, and behind it an effect that leaves
the status as it is (R181, R185). -/
theorem exec_checks_then_acts (h : exec i s = .next t) :
    ∃ (check : Option FaultRecord) (effect : State),
      t = s.unlessFault check effect ∧ effect.status = s.status ∧ ∀ f, check = some f ↔ FaultTable i s f := by
  cases i
  case op00EE =>
    cases h
    exact ⟨_, _, rfl, by simp, s.popFault_eq_some_iff⟩
  case op2NNN =>
    cases h
    exact ⟨_, _, rfl, by simp, s.pushFault_eq_some_iff s.pc⟩
  case opDXYN x y n =>
    cases h
    exact ⟨_, _, rfl, by simp, s.readRangeFault_eq_some_iff n.toNat⟩
  case opFX65 x =>
    cases h
    exact ⟨_, _, rfl, by simp, s.readRangeFault_eq_some_iff (x.toNat + 1)⟩
  case opFX33 =>
    cases h
    exact ⟨_, _, rfl, by simp, s.storeRangeFault_eq_some_iff (by omega) (by omega)⟩
  case opFX55 x =>
    cases h
    exact ⟨_, _, rfl, by simp, s.storeRangeFault_eq_some_iff (by omega) (by have := x.isLt; omega)⟩
  all_goals
    cases h
    exact ⟨none, _, (s.unlessFault_none _).symm, by simp, fun f => by simp only [FaultTable, reduceCtorEq]⟩

/-- An instruction whose row says `f` takes that fault and does nothing else (R185). -/
theorem exec_of_faultTable (hrow : FaultTable i s f) : exec i s = .next (s.takeFault f) := by
  obtain ⟨t, h⟩ := exec_answers_next i s
  obtain ⟨check, effect, rfl, -, hcheck⟩ := exec_checks_then_acts h
  rw [h, (hcheck f).2 hrow, State.unlessFault_some]

/-- An instruction that ends faulted on a running core took the fault of its row and did nothing else (R185). -/
theorem exec_faulted (hrun : s.status = .running) (h : exec i s = .next t) (hf : t.status = .faulted f) :
    FaultTable i s f ∧ t = s.takeFault f := by
  obtain ⟨check, effect, rfl, hstatus, hcheck⟩ := exec_checks_then_acts h
  cases check with
  | none =>
    rw [State.unlessFault_none, hstatus, hrun] at hf
    cases hf
  | some r =>
    cases hf
    exact ⟨(hcheck f).1 rfl, rfl⟩

/-- A step that faults is not counted (R98). -/
@[simp] theorem State.takeFault_finishStep (s : State) (f : FaultRecord) : (s.takeFault f).finishStep = s.takeFault f := rfl

end Sys2Proof.Machine
end

section
/-! The statements of 60_exceptions.md. -/
namespace Sys2Proof.Machine

/-- Settles O18: a step that ends faulted is `takeFault` on the state before it, with pc advanced unless the fetch faulted. -/
theorem faultsArePrecise : Obligations.FaultsArePrecise := by
  intro s u f h hf
  obtain ⟨hrun, ⟨hp, rfl⟩ | ⟨hp, -, rfl⟩ | ⟨hp, i, t, -, he, rfl⟩⟩ := step_cases h
  · cases hf
    rw [if_pos hp]
    rfl
  · cases hf
    rw [if_neg (Nat.not_lt.2 hp)]
    rfl
  · rw [State.finishStep_status] at hf
    obtain ⟨-, rfl⟩ := exec_faulted (s := s.advancePc) hrun he hf
    rw [if_neg (Nat.not_lt.2 hp), State.takeFault_finishStep]
    rfl

/-- Settles O19: the row gives the fault, and a fault can only come from the row. -/
theorem faultsFollowTheFaultTable : Obligations.FaultsFollowTheFaultTable := by
  intro i s t f hrun h
  refine ⟨fun hf => (exec_faulted hrun h hf).1, fun hrow => ?_⟩
  cases h.symm.trans (exec_of_faultTable hrow)
  exact s.takeFault_status f

/-- Settles O6: the decoder rejects a word that no row matches (O5), and the step takes that fault after the
pre-increment. -/
theorem illegalWordFaults : Obligations.IllegalWordFaults := by
  rintro s w ⟨hrun, hp⟩ rfl hw
  exact step_of_illegal hrun hp ((decoderFollowsTheOpcodeMap _).1 hw)

/-- Settles O20: each clause is one row of the fault table. -/
theorem addedFaultsStopBeforeAnyEffect : Obligations.AddedFaultsStopBeforeAnyEffect := by
  intro s nnn x y n
  exact ⟨fun hfull => exec_of_faultTable ⟨hfull, rfl⟩,
    fun hpast => exec_of_faultTable (.inl ⟨⟨by omega, hpast⟩, rfl⟩),
    fun hfont => exec_of_faultTable (.inr ⟨hfont, rfl⟩),
    fun hpast => exec_of_faultTable (.inl ⟨⟨by omega, hpast⟩, rfl⟩),
    fun hfont => exec_of_faultTable (.inr ⟨hfont, rfl⟩),
    fun hpast => exec_of_faultTable ⟨⟨by omega, hpast⟩, rfl⟩,
    fun hn hpast => exec_of_faultTable ⟨⟨hn, hpast⟩, rfl⟩⟩

end Sys2Proof.Machine
end

section
/-! What the ROM load answers on each side of the limit, and the statement of 70_reset_and_hazards.md. -/
namespace Sys2Proof.Machine

/-- A ROM of at most 3584 bytes is stored from 0x200 on (R201). -/
theorem State.loadRom_of_length_le (s : State) {rom : List Byte} (h : rom.length ≤ 3584) :
    s.loadRom rom = some (s.storeBytes 0x200 rom) :=
  if_pos (decide_eq_true h)

/-- A longer ROM is refused (D29; log 22). -/
theorem State.loadRom_of_lt_length (s : State) {rom : List Byte} (h : 3584 < rom.length) : s.loadRom rom = none :=
  if_neg fun hfits => Nat.not_le_of_lt h (of_decide_eq_true hfits)

/-- Settles O9: the load is one store of the ROM's bytes from 0x200 on, and 3584 bytes from there end at the top of
memory. -/
theorem romLoadPlacesBytes : Obligations.RomLoadPlacesBytes := by
  intro s rom hwf
  refine ⟨fun hle => ?fits, s.loadRom_of_lt_length⟩
  case fits =>
    have hend : 0x200 + rom.length ≤ Config.memSize := Nat.add_le_add_left hle 0x200
    exact ⟨s.storeBytes 0x200 rom, s.loadRom_of_length_le hle,
      fun i hi => Memory.read_writeBytes_inside rom s.mem hwf hend hi,
      fun a ha => Memory.read_writeBytes_outside rom s.mem ha, s.storeBytes_frame 0x200 rom⟩

end Sys2Proof.Machine
end
